-- ==== Sys2Proof/Config.lean ====
section
/-! DEFINITION. Config.lean: the fixed parameters of the hardware (00_scope.md rule R6, 10_state.md rules R37 and R38)
and the one open parameter, the serial number (rule R7), at the value `State.reset` uses. -/

namespace Sys2Proof

/-- The modulation the transport is configured with; there is one (rule R37). -/
inductive Modulation
  | askOok
deriving DecidableEq, Repr

/-- What `configure` carries to the transport (rules R200 and R201). -/
structure TransportConfig where
  frequencyHz : Nat
  modulation : Modulation
  baud : Nat
deriving DecidableEq, Repr

namespace Config

/-- `SEQ_BITS` of rule R6. -/
abbrev seqBits : Nat := 200

/-- `SEQ_SYMBOLS` of rule R6. -/
abbrev seqSymbols : Nat := 100

/-- `TAIL_PAD_SYMBOLS` of rule R6. -/
abbrev tailPadSymbols : Nat := 9

/-- `LEVEL_MAX` of rule R6: 7 is never a valid level. -/
abbrev levelMax : Int := 6

/-- `ECC1_HIGH_MIX` of rule R38. -/
def ecc1HighMix : BitVec 4 := 0xD

/-- `ECC2_LOW_MIX` of rule R38. -/
def ecc2LowMix : BitVec 4 := 0x7

/-- `REPEAT_COUNT` of rule R37: repeats after the first transmission. -/
abbrev repeatCount : Nat := 4

/-- `TOTAL_REPETITIONS` of rule R6. -/
abbrev totalRepetitions : Nat := repeatCount + 1

/-- `FREQ_HZ`, `MODULATION` and `BAUD` of rule R37. -/
def transport : TransportConfig :=
  { frequencyHz := 314973000, modulation := .askOok, baud := 2400 }

/-- The value of `pilot` after reset (rules R21, R41; the spec's reading D11, log 9). -/
def pilotReset : Bool := true

/-- DESIGN CHOICE (unsafe; log 1): `SERIAL` is open (rule R7); `State.reset` holds the reference serial number. -/
def serialRef0 : BitVec 9 := 0b001001011

/-- See `serialRef0`. -/
def serialRef1 : BitVec 9 := 0b011110100

/-- See `serialRef0`. -/
def serialRef2 : BitVec 9 := 0b000000100

end Config
end Sys2Proof
end

