-- ==== Sys2Proof/Word.lean ====
section
/-! DEFINITION. Word.lean: the bit vectors and sequences the spec computes with (00_scope.md rules R9 to R12). -/

namespace Sys2Proof

/-- A Word: nine content bits, bit 8 first on the air, bit 0 the pad bit (rule R10). -/
abbrev Word := BitVec 9

/-- Half of a Word's data bits (rule R11). -/
abbrev Nibble := BitVec 4

/-- A level register, three bits (rule R22). -/
abbrev Level := BitVec 3

/-- One byte of the packed form (20_memory.md rule R55). -/
abbrev Byte := BitVec 8

/-- A bit sequence in emission order, element 0 first on the air (rule R12). -/
abbrev Bits := List Bool

end Sys2Proof
end

