-- ==== Sys2Proof/Syntax.lean ====
section
/-! DEFINITION. Syntax.lean: the operations of the block, one constructor per row of spec/opcode_table.json, their
operands, and the form in which an operation is presented to the block. -/

namespace Sys2Proof

/-- The eight control fields in register order (10_state.md rule R20). -/
inductive Field
  | pilot | light | thermostat | power | front | fan | aux | flame
deriving DecidableEq, Repr

/-- An abstract update: a partial map from the control fields to values. A boolean field's value is a boolean, a level
field's value is an integer (40_state_update.md rule R102). -/
structure Update where
  pilot : Option Bool := none
  light : Option Int := none
  thermostat : Option Bool := none
  power : Option Bool := none
  front : Option Bool := none
  fan : Option Int := none
  aux : Option Bool := none
  flame : Option Int := none
deriving DecidableEq, Repr

/-- The symbol alphabet (00_scope.md rule R15, 30_encoding.md rule R77). -/
inductive Symbol
  | sync | zero | one | pad
deriving DecidableEq, Repr

/-- A Packet: seven Words in fixed order, three serial words, two command words, two ECC words (30_encoding.md rule R76). -/
structure Packet where
  ser0 : Word
  ser1 : Word
  ser2 : Word
  cmd1 : Word
  cmd2 : Word
  ecc1 : Word
  ecc2 : Word
deriving DecidableEq, Repr

/-- The operations, one constructor per row of spec/opcode_table.json, with the operands the row's rule gives it. -/
inductive Instr
  /-- UPDATE (R102). -/
  | update (u : Update)
  /-- SET_PILOT (R106). -/
  | setPilot (v : Bool)
  /-- SET_LIGHT (R107). -/
  | setLight (n : Int)
  /-- SET_THERMOSTAT (R108). -/
  | setThermostat (v : Bool)
  /-- SET_POWER (R109). -/
  | setPower (v : Bool)
  /-- SET_FRONT (R110). -/
  | setFront (v : Bool)
  /-- SET_FAN (R111). -/
  | setFan (n : Int)
  /-- SET_AUX (R112). -/
  | setAux (v : Bool)
  /-- SET_FLAME (R113). -/
  | setFlame (n : Int)
  /-- RESEND (R114). -/
  | resend
  /-- RESET (R100): the three serial words. -/
  | reset (w0 w1 w2 : Word)
  /-- GET (R115). -/
  | get
  /-- RSP_OK (R88). -/
  | rspOk
  /-- RSP_OUT_OF_RANGE (R88, R221): the register the error names and the rejected value. -/
  | rspOutOfRange (field : Field) (value : Int)
  /-- RSP_TRANSPORT_FAILURE (R88, R223). -/
  | rspTransportFailure
  /-- SER (R121): which serial word. -/
  | ser (i : Fin 3)
  /-- CW1 (R122), of the registers. -/
  | cw1
  /-- CW2 (R123), of the registers. -/
  | cw2
  /-- ECC1_HIGH (R143). -/
  | ecc1High (hi lo : Nibble)
  /-- ECC1_LOW (R144). -/
  | ecc1Low (hi lo : Nibble)
  /-- ECC2_HIGH (R145). -/
  | ecc2High (hi lo : Nibble)
  /-- ECC2_LOW (R146). -/
  | ecc2Low (hi lo : Nibble)
  /-- ECC1 (R144), of a Command-Word-1. -/
  | ecc1 (w : Word)
  /-- ECC2 (R147), of a Command-Word-2. -/
  | ecc2 (w : Word)
  /-- ASSEMBLE (R120), of the registers. -/
  | assemble
  /-- PARITY (R160). -/
  | parity (w : Word)
  /-- FRAME (R161). -/
  | frame (w : Word)
  /-- TAIL (R163). -/
  | tail
  /-- SYMSEQ (R164). -/
  | symseq (p : Packet)
  /-- LINECODE of SYNC (R180). -/
  | linecodeSync
  /-- LINECODE of ZERO (R180). -/
  | linecodeZero
  /-- LINECODE of ONE (R180). -/
  | linecodeOne
  /-- LINECODE of PAD (R180). -/
  | linecodePad
  /-- EXPAND (R183). -/
  | expand (q : List Symbol)
  /-- PACK (R185). -/
  | pack (b : Bits)
  /-- ENCODE (R186), of the registers. -/
  | encode
  /-- CONFIGURE (R201). -/
  | configure
  /-- EMIT (R202): the bits handed over; the repeat count is the constant of rule R37. -/
  | emit (b : Bits)
deriving DecidableEq, Repr

/-- The line an operation is presented on. The spec gives a command word to the update forms (format U), an operand bus
to RESET, and formats RSP and LC to the responses and line-code rows; for the internal operations it gives none, so the
lines are the model's own (DESIGN CHOICE, log 2; rule R8 lets a model choose its interface). -/
inductive Line
  | u | rst | snap | rsp | ser | cw1 | cw2 | ecc1High | ecc1Low | ecc2High | ecc2Low | ecc1 | ecc2
  | assemble | parity | frame | tail | symseq | lc | expand | pack | encode | configure | emit
  /-- No line at all: bits that fit no row of the table. -/
  | noLine
deriving DecidableEq, Repr

/-- An operation as it is presented: a line and the bits on it, bit 0 the least significant. -/
structure Request where
  line : Line
  word : Nat
deriving DecidableEq, Repr

/-- Why bits presented on a line are no operation. -/
inductive DecodeError
  /-- More bits than the line has. -/
  | tooWide (line : Line)
  /-- Response status `11` is never produced (30_encoding.md rule R93). -/
  | statusNeverProduced
  /-- A status other than `01` with error fields that are not `000` (rule R88). -/
  | errorFieldsNotZero
  /-- A serial word index above 2 (rule R121). -/
  | noSuchSerialWord
  /-- The bits fit no row of the opcode table. -/
  | noRow
deriving DecidableEq, Repr

end Sys2Proof
end

