-- ==== Sys2Proof/Decode.lean ====
section
/-! DEFINITION. Decode.lean: from the bits presented on a line to an operation, and back; and the reading of a word of
spec/opcode_table.json. Formats U and RSP are those of 30_encoding.md rules R87 and R88, the symbol code is format LC
(rule R81). -/

namespace Sys2Proof

/-! ### Bits and numbers -/

/-- The number whose binary digits are `b`, the first the most significant (44_line_coder.md rule R185). -/
def bitsToNat : Bits → Nat
  | [] => 0
  | x :: xs => x.toNat * 2 ^ xs.length + bitsToNat xs

/-- The last `n` binary digits of `w`, the most significant first. -/
def natToBits : Nat → Nat → Bits
  | 0, _ => []
  | n + 1, w => w.testBit n :: natToBits n w

/-- The register index of a control field, which is also `err_field` (rules R20, R88). -/
def Field.index : Field → BitVec 3
  | .pilot => 0
  | .light => 1
  | .thermostat => 2
  | .power => 3
  | .front => 4
  | .fan => 5
  | .aux => 6
  | .flame => 7

/-- The control field of a register index 0 to 7. -/
def Field.ofIndex (i : BitVec 3) : Field :=
  match i.toNat with
  | 0 => .pilot
  | 1 => .light
  | 2 => .thermostat
  | 3 => .power
  | 4 => .front
  | 5 => .fan
  | 6 => .aux
  | _ => .flame

/-- A symbol as a pair of bits, the code of format LC (rule R81); the operand of EXPAND and the LINECODE rows are written
in it (log 26). -/
def Symbol.toPair : Symbol → Bool × Bool
  | .sync => (true, true)
  | .zero => (false, true)
  | .one => (true, false)
  | .pad => (false, false)

/-- The symbol of a pair of bits; every pair is some symbol's (rule R92). -/
def Symbol.ofPair : Bool → Bool → Symbol
  | true, true => .sync
  | false, true => .zero
  | true, false => .one
  | false, false => .pad

/-- A symbol sequence written in pairs of bits. -/
def symbolsToBits : List Symbol → Bits
  | [] => []
  | q :: qs => q.toPair.1 :: q.toPair.2 :: symbolsToBits qs

/-- The symbol sequence written in pairs of bits; a last odd bit is dropped. -/
def bitsToSymbols : Bits → List Symbol
  | a :: b :: rest => Symbol.ofPair a b :: bitsToSymbols rest
  | _ => []

/-! ### The lines -/

/-- How many bits a line carries: format U 22 (R87), the serial bus 27 (R89), format RSP 8 (R88), format LC 2 (R81), and
for the internal operations the bits of their operands. -/
def Line.width : Line → Nat
  | .u => 22
  | .rst => 27
  | .snap => 0
  | .rsp => 8
  | .ser => 2
  | .cw1 => 0
  | .cw2 => 0
  | .ecc1High => 8
  | .ecc1Low => 8
  | .ecc2High => 8
  | .ecc2Low => 8
  | .ecc1 => 9
  | .ecc2 => 9
  | .assemble => 0
  | .parity => 9
  | .frame => 9
  | .tail => 0
  | .symseq => 63
  | .lc => 2
  | .expand => 200
  | .pack => 200
  | .encode => 0
  | .configure => 0
  | .emit => 200
  | .noLine => 0

/-! ### Format U -/

/-- The three data bits of a level field, whose lowest bit is `lo`, as a number. -/
def levelField (u : BitVec 22) (lo : Nat) : Int := ((u.extractLsb' lo 3).toNat : Int)

/-- The abstract update a command word stands for: data of unselected fields is ignored (rules R87 and R93). -/
def decodeUpdate (u : BitVec 22) : Update :=
  { pilot := if u.getLsbD 21 then some (u.getLsbD 13) else none
    light := if u.getLsbD 20 then some (levelField u 10) else none
    thermostat := if u.getLsbD 19 then some (u.getLsbD 9) else none
    power := if u.getLsbD 18 then some (u.getLsbD 8) else none
    front := if u.getLsbD 17 then some (u.getLsbD 7) else none
    fan := if u.getLsbD 16 then some (levelField u 4) else none
    aux := if u.getLsbD 15 then some (u.getLsbD 3) else none
    flame := if u.getLsbD 14 then some (levelField u 0) else none }

/-- The row of a command word: by its eight select bits, a single-field form, RESEND, or UPDATE (rule R98; log 17). -/
def decodeU (u : BitVec 22) : Instr :=
  match (u.extractLsb' 14 8).toNat with
  | 0x80 => .setPilot (u.getLsbD 13)
  | 0x40 => .setLight (levelField u 10)
  | 0x20 => .setThermostat (u.getLsbD 9)
  | 0x10 => .setPower (u.getLsbD 8)
  | 0x08 => .setFront (u.getLsbD 7)
  | 0x04 => .setFan (levelField u 4)
  | 0x02 => .setAux (u.getLsbD 3)
  | 0x01 => .setFlame (levelField u 0)
  | 0x00 => .resend
  | _ => .update (decodeUpdate u)

/-! ### Format RSP -/

/-- The response of an 8-bit word (rule R88). -/
def decodeRsp (r : BitVec 8) : Except DecodeError Instr :=
  match (r.extractLsb' 6 2).toNat with
  | 0 => if r.extractLsb' 0 6 = 0 then .ok .rspOk else .error .errorFieldsNotZero
  | 1 => .ok (.rspOutOfRange (Field.ofIndex (r.extractLsb' 3 3)) ((r.extractLsb' 0 3).toNat : Int))
  | 2 => if r.extractLsb' 0 6 = 0 then .ok .rspTransportFailure else .error .errorFieldsNotZero
  | _ => .error .statusNeverProduced

/-- The LINECODE row of a pair of bits, the first listed bit the higher (rule R180). -/
def decodeLc (c : BitVec 2) : Instr :=
  match Symbol.ofPair (c.getLsbD 1) (c.getLsbD 0) with
  | .sync => .linecodeSync
  | .zero => .linecodeZero
  | .one => .linecodeOne
  | .pad => .linecodePad

/-- The serial word SER reads (rule R121): index 0, 1 or 2. -/
def decodeSer (w : Nat) : Except DecodeError Instr :=
  if h : w < 3 then .ok (.ser ⟨w, h⟩) else .error .noSuchSerialWord

/-- Seven words from 63 bits, the first the most significant (rule R76). -/
def decodePacket (p : BitVec 63) : Packet :=
  { ser0 := p.extractLsb' 54 9, ser1 := p.extractLsb' 45 9, ser2 := p.extractLsb' 36 9,
    cmd1 := p.extractLsb' 27 9, cmd2 := p.extractLsb' 18 9, ecc1 := p.extractLsb' 9 9, ecc2 := p.extractLsb' 0 9 }

/-- The upper nibble of an operand byte. -/
def upperNibble (w : Nat) : Nibble := (BitVec.ofNat 8 w).extractLsb' 4 4

/-- The lower nibble of an operand byte. -/
def lowerNibble (w : Nat) : Nibble := (BitVec.ofNat 8 w).extractLsb' 0 4

/-- The operation of `w` on a line, `w` within the line's width. -/
def decodeLine : Line → Nat → Except DecodeError Instr
  | .u, w => .ok (decodeU (BitVec.ofNat 22 w))
  | .rst, w => .ok (.reset ((BitVec.ofNat 27 w).extractLsb' 18 9) ((BitVec.ofNat 27 w).extractLsb' 9 9)
      ((BitVec.ofNat 27 w).extractLsb' 0 9))
  | .snap, _ => .ok .get
  | .rsp, w => decodeRsp (BitVec.ofNat 8 w)
  | .ser, w => decodeSer w
  | .cw1, _ => .ok .cw1
  | .cw2, _ => .ok .cw2
  | .ecc1High, w => .ok (.ecc1High (upperNibble w) (lowerNibble w))
  | .ecc1Low, w => .ok (.ecc1Low (upperNibble w) (lowerNibble w))
  | .ecc2High, w => .ok (.ecc2High (upperNibble w) (lowerNibble w))
  | .ecc2Low, w => .ok (.ecc2Low (upperNibble w) (lowerNibble w))
  | .ecc1, w => .ok (.ecc1 (BitVec.ofNat 9 w))
  | .ecc2, w => .ok (.ecc2 (BitVec.ofNat 9 w))
  | .assemble, _ => .ok .assemble
  | .parity, w => .ok (.parity (BitVec.ofNat 9 w))
  | .frame, w => .ok (.frame (BitVec.ofNat 9 w))
  | .tail, _ => .ok .tail
  | .symseq, w => .ok (.symseq (decodePacket (BitVec.ofNat 63 w)))
  | .lc, w => .ok (decodeLc (BitVec.ofNat 2 w))
  | .expand, w => .ok (.expand (bitsToSymbols (natToBits 200 w)))
  | .pack, w => .ok (.pack (natToBits 200 w))
  | .encode, _ => .ok .encode
  | .configure, _ => .ok .configure
  | .emit, w => .ok (.emit (natToBits 200 w))
  | .noLine, _ => .error .noRow

/-- The decoder: total on any line and any bits, rejecting by name. -/
def decode (r : Request) : Except DecodeError Instr :=
  if r.word < 2 ^ r.line.width then decodeLine r.line r.word
  else if r.line = .noLine then .error .noRow
  else .error (.tooWide r.line)

/-! ### The encoder -/

/-- A boolean data bit; 0 where the field is not selected. -/
def boolBit (v : Option Bool) : BitVec 1 := BitVec.ofBool (v.getD false)

/-- Three level data bits; 000 where the field is not selected. -/
def levelBits (n : Option Int) : BitVec 3 := BitVec.ofInt 3 (n.getD 0)

/-- The eight select bits of an update, `sel_pilot` first (rule R87). -/
def selectBits (u : Update) : BitVec 8 :=
  BitVec.ofBool u.pilot.isSome ++ BitVec.ofBool u.light.isSome ++ BitVec.ofBool u.thermostat.isSome ++
    BitVec.ofBool u.power.isSome ++ BitVec.ofBool u.front.isSome ++ BitVec.ofBool u.fan.isSome ++
    BitVec.ofBool u.aux.isSome ++ BitVec.ofBool u.flame.isSome

/-- The fourteen data bits of an update, `d_pilot` first (rule R87). -/
def dataBits (u : Update) : BitVec 14 :=
  boolBit u.pilot ++ levelBits u.light ++ boolBit u.thermostat ++ boolBit u.power ++ boolBit u.front ++
    levelBits u.fan ++ boolBit u.aux ++ levelBits u.flame

/-- The 22-bit command word of an abstract update (rule R87). -/
def encodeUpdate (u : Update) : BitVec 22 := selectBits u ++ dataBits u

/-- An update on its line. -/
def onU (u : Update) : Request := ⟨.u, (encodeUpdate u).toNat⟩

/-- Two nibbles on a line, the high one first. -/
def onNibbles (l : Line) (hi lo : Nibble) : Request := ⟨l, (hi ++ lo).toNat⟩

/-- The encoder: the line and the bits that present an operation. -/
def encode : Instr → Request
  | .update u => onU u
  | .setPilot v => onU { pilot := some v }
  | .setLight n => onU { light := some n }
  | .setThermostat v => onU { thermostat := some v }
  | .setPower v => onU { power := some v }
  | .setFront v => onU { front := some v }
  | .setFan n => onU { fan := some n }
  | .setAux v => onU { aux := some v }
  | .setFlame n => onU { flame := some n }
  | .resend => onU {}
  | .reset w0 w1 w2 => ⟨.rst, (w0 ++ w1 ++ w2).toNat⟩
  | .get => ⟨.snap, 0⟩
  | .rspOk => ⟨.rsp, 0⟩
  | .rspOutOfRange f n => ⟨.rsp, (0b01#2 ++ f.index ++ BitVec.ofInt 3 n).toNat⟩
  | .rspTransportFailure => ⟨.rsp, 0x80⟩
  | .ser i => ⟨.ser, i.val⟩
  | .cw1 => ⟨.cw1, 0⟩
  | .cw2 => ⟨.cw2, 0⟩
  | .ecc1High hi lo => onNibbles .ecc1High hi lo
  | .ecc1Low hi lo => onNibbles .ecc1Low hi lo
  | .ecc2High hi lo => onNibbles .ecc2High hi lo
  | .ecc2Low hi lo => onNibbles .ecc2Low hi lo
  | .ecc1 w => ⟨.ecc1, w.toNat⟩
  | .ecc2 w => ⟨.ecc2, w.toNat⟩
  | .assemble => ⟨.assemble, 0⟩
  | .parity w => ⟨.parity, w.toNat⟩
  | .frame w => ⟨.frame, w.toNat⟩
  | .tail => ⟨.tail, 0⟩
  | .symseq p =>
    ⟨.symseq, (p.ser0 ++ p.ser1 ++ p.ser2 ++ p.cmd1 ++ p.cmd2 ++ p.ecc1 ++ p.ecc2).toNat⟩
  | .linecodeSync => ⟨.lc, 3⟩
  | .linecodeZero => ⟨.lc, 1⟩
  | .linecodeOne => ⟨.lc, 2⟩
  | .linecodePad => ⟨.lc, 0⟩
  | .expand q => ⟨.expand, bitsToNat (symbolsToBits q)⟩
  | .pack b => ⟨.pack, bitsToNat b⟩
  | .encode => ⟨.encode, 0⟩
  | .configure => ⟨.configure, 0⟩
  | .emit b => ⟨.emit, bitsToNat b⟩

/-! ### Words of the opcode table -/

/-- The 9-bit rows CW1, CW2, ECC1, ECC2 and SER: the table gives the pattern of the RESULT, and the patterns overlap. A
word is read as the first row, in the order CW1, CW2, ECC1, SER, whose fixed bits it has and whose level fields are not
`111` (rules R86 and R91; log 3). The operand words, to which the table gives no bits, are 0. -/
def tableWord9 (w : BitVec 9) : Request :=
  if w.extractLsb' 3 2 = 0 ∧ w.getLsbD 0 = false ∧ w.extractLsb' 5 3 ≠ 7 then ⟨.cw1, 0⟩
  else if w.getLsbD 0 = false ∧ w.extractLsb' 5 3 ≠ 7 ∧ w.extractLsb' 1 3 ≠ 7 then ⟨.cw2, 0⟩
  else if w.getLsbD 0 = false then ⟨.ecc1, 0⟩
  else ⟨.ser, 0⟩

/-- The rows of at most eight bits: the three responses, the four LINECODE rows, and the four-bit ECC nibbles. The words
0 to 3 and 0 to 15 belong to several of them; RSP_OK, then LINECODE, then ECC1_HIGH are tried in this order (log 3). -/
def tableWord8 (w : Nat) : Request :=
  if w = 0 then ⟨.rsp, 0⟩
  else if w ≤ 3 then ⟨.lc, w⟩
  else if w ≤ 15 then ⟨.ecc1High, 0⟩
  else if 0x40 ≤ w then ⟨.rsp, w⟩
  else ⟨.noLine, w⟩

/-- The 63-bit row ASSEMBLE, with its fixed zeros (rule R86). -/
def tableWord63 (p : Packet) : Bool :=
  decide (p.cmd1.extractLsb' 3 2 = 0) && !p.cmd1.getLsbD 0 && !p.cmd2.getLsbD 0 && !p.ecc1.getLsbD 0 && !p.ecc2.getLsbD 0

/-- How a word of `nbits` bits of the table is presented (log 3). Where the row's pattern is that of a result (GET, CW1,
ECC1, ASSEMBLE ...), its bits are driven by the block and not by the request, and the operands are 0. Of the three rows of
200 bits, PACK is the one whose bits are its operand. -/
def tableRequest (nbits w : Nat) : Request :=
  match nbits with
  | 8 => if w < 2 ^ 8 then tableWord8 w else ⟨.noLine, w⟩
  | 16 => if w < 2 ^ 9 then tableWord9 (BitVec.ofNat 9 w) else ⟨.noLine, w⟩
  | 24 => if w < 2 ^ 22 then ⟨.u, w⟩ else ⟨.noLine, w⟩
  | 32 => if w < 2 ^ 27 then ⟨.rst, w⟩ else ⟨.noLine, w⟩
  | 48 => if w < 2 ^ 41 then ⟨.snap, 0⟩ else ⟨.noLine, w⟩
  | 64 => if w < 2 ^ 63 ∧ tableWord63 (decodePacket (BitVec.ofNat 63 w)) = true then ⟨.assemble, 0⟩ else ⟨.noLine, w⟩
  | 200 => if w < 2 ^ 200 then ⟨.pack, w⟩ else ⟨.noLine, w⟩
  | _ => ⟨.noLine, w⟩

/-- The operation the decoder reads from a word of the opcode table. -/
def decodeTableWord (nbits w : Nat) : Option Instr :=
  match decode (tableRequest nbits w) with
  | .ok i => some i
  | .error _ => none

end Sys2Proof
end

