-- ==== Sys2Proof/Machine/State.lean ====
section
/-! DEFINITION. Machine/State.lean: the state of the block and of its surroundings as plain data, the ways a step can
stop, and the state after reset. -/

namespace Sys2Proof.Machine

/-- The DeviceState: the eight control registers `x[0]` to `x[7]` and the three serial registers `x[8]` to `x[10]`
(10_state.md rule R20). -/
structure Device where
  pilot : Bool
  light : Level
  thermostat : Bool
  power : Bool
  front : Bool
  fan : Level
  aux : Bool
  flame : Level
  serial0 : Word
  serial1 : Word
  serial2 : Word
deriving DecidableEq, Repr

/-- The transport's answer to a transmit (45_emit_transport.md rule R206). -/
inductive Answer
  | done | failed
deriving DecidableEq, Repr

/-- The two error outcomes, the source's taxonomy (60_exceptions.md rule R220). -/
inductive Exc
  /-- A selected level outside 0 to 6: the field and the value (rules R221 and R222). -/
  | outOfRange (field : Field) (value : Int)
  /-- The transport answered failed (rule R223). -/
  | transportFailure
deriving DecidableEq, Repr

/-- The response to an UPDATE (30_encoding.md rule R88). -/
inductive Response
  | ok
  | error (e : Exc)
deriving DecidableEq, Repr

/-- What leaves the block, in the order it happens (00_scope.md rule R19). -/
inductive Event
  /-- A response to the host. -/
  | response (r : Response)
  /-- The response to a GET: the registers as they are (rule R59). -/
  | snapshot (d : Device)
  /-- An emit: the sequence handed over and the repeat count (45_emit_transport.md rule R202). -/
  | emit (b : Bits) (repeatCount : Nat)
deriving DecidableEq, Repr

/-- The value an operation returns. -/
inductive Value
  | nothing
  | bit (b : Bool)
  | nibble (n : Nibble)
  | word (w : Word)
  | packet (p : Packet)
  | symbols (q : List Symbol)
  | bits (b : Bits)
  | bytes (b : List Byte)
  | answer (a : Answer)
deriving DecidableEq, Repr

/-- Which operation waits for the transport: an UPDATE, which owes the host a response, or EMIT by itself. -/
inductive Caller
  | update | emit
deriving DecidableEq, Repr

/-- A transmission in progress: the sequence in flight, fixed before its first bit leaves (20_memory.md rule R65), and
which of the five repetitions, 0 to 4, is being sent (45_emit_transport.md rule R203). -/
structure Flight where
  bits : Bits
  rep : Nat
  caller : Caller
deriving DecidableEq, Repr

/-- Everything the spec gives the block, and, below the line, the model's own record of its surroundings. -/
structure State where
  /-- The eleven registers (rule R20). -/
  dev : Device
  /-- `LAST`, the last encoded sequence (rule R33). -/
  last : Option Bits
  /-- `busy` (rule R34). -/
  busy : Bool
  /-- `pos`, the emission position, 0 to 200 (rule R36). -/
  pos : Nat
  /-- The transmission in progress, none when idle (rules R65, R203 and R206). -/
  flight : Option Flight
  /-- The MODEL's own: the operations presented and not yet accepted, the oldest first (rule R63; log 2). -/
  requests : List Request
  /-- The MODEL's own: the transport's answers not yet taken, the free input of rule R206 (log 4). -/
  answers : List Answer
  /-- The MODEL's own: what the transport was last configured with (rules R201 and R256; log 14). -/
  configured : Option TransportConfig
  /-- The MODEL's own: the observation of rule R19 so far, the oldest first (log 8). -/
  obs : List Event
  /-- The MODEL's own: the value the last internal operation or emit returned (log 7). -/
  result : Value
deriving DecidableEq, Repr

/-- The ways the model stops with a fault. The block itself has none: both its errors are responses (rule R220). -/
inductive Fault
  /-- What is presented on a line is no word of that line. Raised by `step` alone. Safe: no spec operation is presented
  so, and the model stops where nothing is claimed. -/
  | notAWord (e : DecodeError)
deriving DecidableEq, Repr

/-- The ways the model declines a step. -/
inductive Refusal
  /-- An instruction without a meaning yet. Raised by `exec`'s refused arms; this model has none. Safe. -/
  | notModelled (mnemonic : String)
  /-- A word or an encoding of registers in which this level is 7, which the spec leaves undefined (41_packet_encoder.md
  rule R127, 93_implementation_defined.md U3). Raised by CW1, CW2, ASSEMBLE, ENCODE and the update forms. Safe: no run
  reaches such registers. -/
  | invalidLevel (f : Field)
deriving DecidableEq, Repr

/-- The registers after a reset with this serial number (10_state.md rule R41). -/
def Device.afterReset (w0 w1 w2 : Word) : Device :=
  { pilot := Config.pilotReset, light := 0, thermostat := false, power := false, front := false, fan := 0, aux := false,
    flame := 0, serial0 := w0, serial1 := w1, serial2 := w2 }

/-- The machine right after a reset with this serial number (rules R41 and R250), nothing presented and nothing
answered. -/
def State.resetWith (w0 w1 w2 : Word) : State :=
  { dev := Device.afterReset w0 w1 w2, last := none, busy := false, pos := 200, flight := none, requests := [],
    answers := [], configured := none, obs := [], result := .nothing }

/-- The machine right after reset, with the reference serial number for `SERIAL`, which the spec leaves open (DESIGN
CHOICE, log 1). -/
def State.reset : State := State.resetWith Config.serialRef0 Config.serialRef1 Config.serialRef2

end Sys2Proof.Machine
end

