-- ==== Sys2Proof/Machine/Operands.lean ====
section
/-! DEFINITION. Machine/Operands.lean: how operands are cut and assembled: the nibbles and bits of a Word, levels,
register numbers, and the abstract update against the registers. -/

namespace Sys2Proof.Machine

/-! ### Words and nibbles -/

/-- `hi(w) = w[8:5]` (00_scope.md rule R11). -/
def hiNibble (w : Word) : Nibble := w.extractLsb' 5 4

/-- `lo(w) = w[4:1]` (rule R11). -/
def loNibble (w : Word) : Nibble := w.extractLsb' 1 4

/-- `pad(w) = w[0]` (rule R11). -/
def padBit (w : Word) : Bool := w.getLsbD 0

/-- `shl4`: doubled, the top bit dropped (42_checksum_ecc.md rule R141). -/
def shl4 (x : Nibble) : Nibble := BitVec.ofNat 4 (2 * x.toNat)

/-- The nine content bits, `w[8]` first (20_memory.md rule R53). -/
def contentBits (w : Word) : Bits :=
  [w.getLsbD 8, w.getLsbD 7, w.getLsbD 6, w.getLsbD 5, w.getLsbD 4, w.getLsbD 3, w.getLsbD 2, w.getLsbD 1, w.getLsbD 0]

/-- A boolean enters a word as one bit, true as 1 (30_encoding.md rule R84; PRESUMED by the spec itself, log 22). -/
def bit (b : Bool) : BitVec 1 := BitVec.ofBool b

/-- A level enters a word as its three bits, the most significant first (rule R83). -/
def bin3 (l : Level) : BitVec 3 := l

/-! ### Levels -/

/-- A value of a level field is valid from 0 to 6 (40_state_update.md rule R103). -/
def levelValid (n : Int) : Bool := decide (0 ≤ n) && decide (n ≤ Config.levelMax)

/-- A level register holds a valid value: not 7 (10_state.md rule R29). -/
def levelOk (l : Level) : Bool := decide (l.toNat ≤ 6)

/-- A selected level that is not valid. -/
def invalidLevel : Option Int → Option Int
  | none => none
  | some n => if levelValid n then none else some n

/-- Stage 1: the first invalid selected level in the order light, fan, flame (40_state_update.md rules R102, R103;
60_exceptions.md rule R228; log 21). -/
def firstInvalid (u : Update) : Option (Field × Int) :=
  match invalidLevel u.light, invalidLevel u.fan, invalidLevel u.flame with
  | some n, _, _ => some (.light, n)
  | none, some n, _ => some (.fan, n)
  | none, none, some n => some (.flame, n)
  | none, none, none => none

/-- The first of light, fan and flame that holds 7, where the spec gives no encoding (41_packet_encoder.md rule R127). -/
def Device.badLevel (d : Device) : Option Field :=
  if levelOk d.light = false then some .light
  else if levelOk d.fan = false then some .fan
  else if levelOk d.flame = false then some .flame
  else none

/-! ### Registers -/

/-- A level register written with a value that passed stage 1. -/
def toLevel (n : Int) : Level := BitVec.ofInt 3 n

/-- Stage 2: every selected register takes its new value, every other register keeps its own, the serial registers among
them (40_state_update.md rule R104). -/
def Device.commit (u : Update) (d : Device) : Device :=
  { d with
    pilot := u.pilot.getD d.pilot
    light := (u.light.map toLevel).getD d.light
    thermostat := u.thermostat.getD d.thermostat
    power := u.power.getD d.power
    front := u.front.getD d.front
    fan := (u.fan.map toLevel).getD d.fan
    aux := u.aux.getD d.aux
    flame := (u.flame.map toLevel).getD d.flame }

/-- The serial word of index 0, 1 or 2 (41_packet_encoder.md rule R121). -/
def Device.serial (d : Device) (i : Fin 3) : Word :=
  match i with
  | 0 => d.serial0
  | 1 => d.serial1
  | 2 => d.serial2

/-- Register `x[i]`, zero-extended to nine bits (10_state.md rule R20, 20_memory.md rule R51). -/
def Device.read (d : Device) (i : Fin 11) : BitVec 9 :=
  match i with
  | 0 => (bit d.pilot).setWidth 9
  | 1 => d.light.setWidth 9
  | 2 => (bit d.thermostat).setWidth 9
  | 3 => (bit d.power).setWidth 9
  | 4 => (bit d.front).setWidth 9
  | 5 => d.fan.setWidth 9
  | 6 => (bit d.aux).setWidth 9
  | 7 => d.flame.setWidth 9
  | 8 => d.serial0
  | 9 => d.serial1
  | 10 => d.serial2

/-- The 41 bits of a GET's snapshot: fourteen control bits in the order of format U's data half, then the serial words
(30_encoding.md rule R88). -/
def Device.snapshotWord (d : Device) : BitVec 41 :=
  bit d.pilot ++ bin3 d.light ++ bit d.thermostat ++ bit d.power ++ bit d.front ++ bin3 d.fan ++ bit d.aux ++
    bin3 d.flame ++ d.serial0 ++ d.serial1 ++ d.serial2

end Sys2Proof.Machine
end

