-- ==== Sys2Proof/Machine/Flags.lean ====
section
/-! DEFINITION. Machine/Flags.lean: the block has no condition codes (10_state.md rule R35). What an operation reports
of itself is its response, and the one bit computed over a word is its parity. -/

namespace Sys2Proof.Machine

/-- The number of ones of a Word, pad bit included (00_scope.md rule R13). -/
def popcount (w : Word) : Nat := (contentBits w).count true

/-- PARITY: `popcount(w[8:0]) mod 2` (43_symbol_framer.md rule R160). -/
def parity (w : Word) : Bool := decide (popcount w % 2 = 1)

/-- The response that reports an error (60_exceptions.md rules R221 and R223). -/
def Exc.response (e : Exc) : Response := .error e

/-- The response a completed or failed emit gives an UPDATE (40_state_update.md rule R102). -/
def Answer.response : Answer → Response
  | .done => .ok
  | .failed => Exc.response .transportFailure

/-- Format RSP: status, `err_field`, `err_value` (30_encoding.md rule R88). A rejected value outside 0 to 7, which only
the abstract update can carry, has no 8-bit form (rule R90; log 18). -/
def Response.word : Response → Option (BitVec 8)
  | .ok => some (0b00#2 ++ 0b000#3 ++ 0b000#3)
  | .error (.outOfRange f n) => if 0 ≤ n ∧ n ≤ 7 then some (0b01#2 ++ f.index ++ BitVec.ofInt 3 n) else none
  | .error .transportFailure => some (0b10#2 ++ 0b000#3 ++ 0b000#3)

end Sys2Proof.Machine
end

