-- ==== Sys2Proof/Machine/Codec.lean ====
section
/-! DEFINITION. Machine/Codec.lean: the four pure sub-blocks in the order they run (00_scope.md rule R2): packet_encoder,
checksum_ecc_generator, symbol_framer, manchester_line_coder, and their composition ENCODE. -/

namespace Sys2Proof.Machine

/-! ### packet_encoder: the command words -/

/-- CW1: `pilot | light | 00 | thermostat | power | 0` (41_packet_encoder.md rule R122; log 10). -/
def cw1 (d : Device) : Word :=
  bit d.pilot ++ bin3 d.light ++ 0b00#2 ++ bit d.thermostat ++ bit d.power ++ 0b0#1

/-- CW2: `front | fan | aux | flame | 0` (rule R123). -/
def cw2 (d : Device) : Word :=
  bit d.front ++ bin3 d.fan ++ bit d.aux ++ bin3 d.flame ++ 0b0#1

/-! ### checksum_ecc_generator -/

/-- ECC1_HIGH (42_checksum_ecc.md rule R143). -/
def ecc1High (hi lo : Nibble) : Nibble := (Config.ecc1HighMix ^^^ hi ^^^ shl4 hi ^^^ shl4 lo) &&& 0xF#4

/-- ECC1_LOW (rule R144). -/
def ecc1Low (hi lo : Nibble) : Nibble := hi ^^^ lo

/-- ECC2_HIGH (rule R145). -/
def ecc2High (hi lo : Nibble) : Nibble := (hi ^^^ shl4 hi ^^^ shl4 lo) &&& 0xF#4

/-- ECC2_LOW (rule R146). -/
def ecc2Low (hi lo : Nibble) : Nibble := hi ^^^ lo ^^^ Config.ecc2LowMix

/-- An ECC word from its nibbles: pad 0 (30_encoding.md rule R75). -/
def eccWord (high low : Nibble) : Word := high ++ low ++ 0b0#1

/-- ECC1 of a Command-Word-1 (rule R144); its nibbles are cut from the word (30_encoding.md rule R85). -/
def ecc1 (w : Word) : Word :=
  eccWord (ecc1High (hiNibble w) (loNibble w)) (ecc1Low (hiNibble w) (loNibble w))

/-- ECC2 of a Command-Word-2 (rule R147). -/
def ecc2 (w : Word) : Word :=
  eccWord (ecc2High (hiNibble w) (loNibble w)) (ecc2Low (hiNibble w) (loNibble w))

/-! ### packet_encoder: the Packet -/

/-- ASSEMBLE: the seven words in their fixed order (41_packet_encoder.md rules R120 and R124). -/
def assemble (d : Device) : Packet :=
  { ser0 := d.serial 0, ser1 := d.serial 1, ser2 := d.serial 2, cmd1 := cw1 d, cmd2 := cw2 d,
    ecc1 := ecc1 (cw1 d), ecc2 := ecc2 (cw2 d) }

/-! ### symbol_framer -/

/-- `sym(b)` (00_scope.md rule R15). -/
def sym (b : Bool) : Symbol := if b then .one else .zero

/-- FRAME: SYNC, guard, nine content bits, parity, guard (43_symbol_framer.md rule R161). -/
def frame (w : Word) : List Symbol :=
  [.sync, .one] ++ (contentBits w).map sym ++ [sym (parity w), .one]

/-- TAIL: nine PAD symbols (rule R163). -/
def tail : List Symbol := List.replicate Config.tailPadSymbols .pad

/-- SYMSEQ: the seven frames, then the tail (rule R164). -/
def symseq (p : Packet) : List Symbol :=
  frame p.ser0 ++ frame p.ser1 ++ frame p.ser2 ++ frame p.cmd1 ++ frame p.cmd2 ++ frame p.ecc1 ++ frame p.ecc2 ++ tail

/-! ### manchester_line_coder -/

/-- LINECODE: two bits a symbol (44_line_coder.md rule R180). -/
def linecode : Symbol → Bits
  | .sync => [true, true]
  | .zero => [false, true]
  | .one => [true, false]
  | .pad => [false, false]

/-- EXPAND: every symbol independently, in order (rules R181 and R183). -/
def expand (q : List Symbol) : Bits := q.flatMap linecode

/-- PACK: bytes of eight bits, the first the most significant (rule R185). -/
def pack : Bits → List Byte
  | b7 :: b6 :: b5 :: b4 :: b3 :: b2 :: b1 :: b0 :: rest =>
    (bit b7 ++ bit b6 ++ bit b5 ++ bit b4 ++ bit b3 ++ bit b2 ++ bit b1 ++ bit b0) :: pack rest
  | _ => []

/-! ### The whole codec -/

/-- ENCODE: a function of the eleven registers alone (rules R186 and R187). -/
def encodeDevice (d : Device) : Bits := expand (symseq (assemble d))

/-! ### What the transport makes of a sequence -/

/-- The bits on the air for one completed transmit: the sequence five times, nothing between (45_emit_transport.md rules
R203 and R204). -/
def onAir (b : Bits) : Bits := (List.replicate Config.totalRepetitions b).flatten

end Sys2Proof.Machine
end

