-- ==== Sys2Proof/Machine/Ops.lean ====
section
/-! DEFINITION. Machine/Ops.lean: the named operations over the state that every meaning is written with: giving a
value, being held while busy, resetting, observing, the entry of an error, the four stages of an UPDATE, and the
transmission. -/

namespace Sys2Proof.Machine

/-- The outcome of one operation. -/
abbrev Result := Host.Outcome State Fault Refusal

/-! ### Plain updates of the state -/

/-- An event leaves the block (00_scope.md rule R19). -/
def observe (e : Event) (s : State) : State := { s with obs := s.obs ++ [e] }

/-- The operation returns a value. -/
def setResult (v : Value) (s : State) : State := { s with result := v }

/-- The registers and `LAST` of a committed and encoded UPDATE (40_state_update.md rules R104 and R105). -/
def setDevice (d : Device) (b : Bits) (s : State) : State := { s with dev := d, last := some b }

/-- No UPDATE in progress, no sequence in flight, no bit left to send (10_state.md rules R34 and R36). -/
def setIdle (s : State) : State := { s with busy := false, flight := none, pos := 200 }

/-- A sequence in flight, its first bit the next to leave (rules R34, R36 and R65). -/
def setFlight (f : Flight) (s : State) : State := { s with busy := true, flight := some f, pos := 0 }

/-- The registers and hidden state of RESET (40_state_update.md rule R100). The record of the surroundings stays
(log 29). -/
def resetBlock (w0 w1 w2 : Word) (s : State) : State :=
  { s with
    dev := { pilot := true, light := 0, thermostat := false, power := false, front := false, fan := 0, aux := false,
             flame := 0, serial0 := w0, serial1 := w1, serial2 := w2 }
    last := none
    busy := false
    pos := 200
    flight := none }

/-- The transport holds these parameters: a configure call that succeeded (45_emit_transport.md rule R201; log 34). -/
def setConfigured (c : TransportConfig) (s : State) : State := { s with configured := some c }

/-- The host presents one more operation. -/
def State.present (r : Request) (s : State) : State := { s with requests := s.requests ++ [r] }

/-- The transport gives one more answer. -/
def State.hear (a : Answer) (s : State) : State := { s with answers := s.answers ++ [a] }

/-- The operations still presented. -/
def setRequests (rs : List Request) (s : State) : State := { s with requests := rs }

/-- The answers not yet taken. -/
def setAnswers (as : List Answer) (s : State) : State := { s with answers := as }

/-! ### Outcomes of pure operations -/

/-- A pure operation: it returns its value and changes nothing else. -/
def give (v : Value) (s : State) : Result := .next (setResult v s)

/-- A pure operation of the registers, for which these levels must not be 7 (41_packet_encoder.md rule R127; log 11). -/
def giveUnless (bad : Option Field) (v : Value) (s : State) : Result :=
  match bad with
  | some f => .refused (.invalidLevel f)
  | none => give v s

/-- An operation presented while `busy` is 1 is held: not refused, not dropped, and nothing of it happens yet
(20_memory.md rule R63; log 12). -/
def whenIdle (s : State) (k : State → Result) : Result := if s.busy then .next s else k s

/-! ### Responses and errors -/

/-- The response of an operation: `busy` falls and the host has it (10_state.md rule R34, 30_encoding.md rule R88). -/
def respond (r : Response) (s : State) : State := observe (.response r) (setIdle s)

/-- Taking an error, the one entry for both: the response, `busy` 0, and nothing else; no handler, no saved state, no
mode (60_exceptions.md rules R229 to R231). There is no return operation: after it the block is idle and accepts the
next operation as after an OK (rule R232). -/
def raise (e : Exc) (s : State) : State := respond e.response s

/-! ### The transmission -/

/-- The block hands one copy of a sequence to the transport with the repeat count 4 (45_emit_transport.md rule R202). -/
def handOver (c : Caller) (b : Bits) (s : State) : State :=
  observe (.emit b Config.repeatCount) (setFlight { bits := b, rep := 0, caller := c } s)

/-- The transport's answer ends the transmission: it is the value EMIT returns (rule R202). An UPDATE responds with it
(40_state_update.md rule R102), EMIT by itself raises TransportFailure when it is failed (log 15). -/
def finish (c : Caller) (a : Answer) (s : State) : State :=
  match c, a with
  | .update, .done => respond .ok (setResult (.answer .done) s)
  | .emit, .done => setIdle (setResult (.answer .done) s)
  | _, .failed => raise .transportFailure (setResult (.answer .failed) s)

/-- EMIT: hand over, then wait for the transport's answer. Where it is at hand the operation is complete in this one
step; where it is not the sequence is in flight and `busy` stays 1 (rules R202 and R206; log 4, log 5). -/
def emitThen (c : Caller) (b : Bits) (s : State) : State :=
  match s.answers with
  | [] => handOver c b s
  | a :: as => finish c a (setAnswers as (handOver c b s))

/-- All five repetitions have left: the only point at which the transport can answer done (rule R206; log 31). -/
def allSent (f : Flight) (pos : Nat) : Bool := decide (pos = 200) && decide (f.rep = Config.repeatCount)

/-- The next bit leaves, and `pos` counts up; past the last bit the next repetition begins at 0; past the last
repetition nothing is left (10_state.md rule R36, 45_emit_transport.md rule R203). -/
def sendBit (f : Flight) (s : State) : State :=
  if s.pos < 200 then { s with pos := s.pos + 1 }
  else if f.rep < Config.repeatCount then { s with pos := 0, flight := some { f with rep := f.rep + 1 } }
  else s

/-- The next bit to leave, none when none is left (rule R36). -/
def nextBit (s : State) : Option Bool :=
  match s.flight with
  | none => none
  | some f => f.bits[s.pos]?

/-- The bits that have left in this transmission. -/
def sentBits (f : Flight) (pos : Nat) : Bits := (onAir f.bits).take (200 * f.rep + pos)

/-- The transport's part of a step while a sequence is in flight: it fails outright, or has sent everything and is done,
or takes the next bit; with no answer after the last bit it waits, which is a hang if none ever comes (rules R206 and
R207; log 5, log 31). -/
def transportStep (s : State) : State :=
  match s.flight, s.answers with
  | none, _ => s
  | some f, .failed :: as => finish f.caller .failed (setAnswers as s)
  | some f, .done :: as => if allSent f s.pos then finish f.caller .done (setAnswers as s) else sendBit f s
  | some f, [] => sendBit f s

/-! ### UPDATE -/

/-- UPDATE of an abstract update: held while busy; else validate, commit, encode, emit, in this order (40_state_update.md
rules R101 to R105, 20_memory.md rule R62). -/
def runUpdate (u : Update) (s : State) : Result :=
  whenIdle s fun s =>
    match firstInvalid u with
    | some (f, n) => .next (raise (.outOfRange f n) s)
    | none =>
      let d := s.dev.commit u
      match d.badLevel with
      | some f => .refused (.invalidLevel f)
      | none => .next (emitThen .update (encodeDevice d) (setDevice d (encodeDevice d) s))

/-- RESET: held while busy; else the registers and the hidden state take their reset values, and nothing is encoded or
emitted (rule R100, 70_reset_and_hazards.md rule R252). -/
def runReset (w0 w1 w2 : Word) (s : State) : Result :=
  whenIdle s fun s => .next (resetBlock w0 w1 w2 s)

/-! ### Which presented operation is accepted next -/

/-- The lines whose operations wait while `busy` is 1: the update forms and RESET (rule R63), and, as they use the same
transport or end the same UPDATE, the transport calls and the responses (log 12). -/
def heldLine : Line → Bool
  | .u => true
  | .rst => true
  | .rsp => true
  | .configure => true
  | .emit => true
  | _ => false

/-- The operation accepted next and the ones left: the oldest; while busy the oldest that is not held, the held ones
keeping their places (rule R63, U6 of 93_implementation_defined.md; log 13). -/
def pick (busy : Bool) : List Request → Option (Request × List Request)
  | [] => none
  | r :: rs =>
    if busy && heldLine r.line then
      match pick busy rs with
      | none => none
      | some (x, xs) => some (x, r :: xs)
    else some (r, rs)

/-! ### Signal-level views (30_encoding.md rule R89, informative) -/

/-- `state_out`. -/
def State.stateOut (s : State) : BitVec 41 := s.dev.snapshotWord

/-- `upd_ready = not busy`. -/
def State.updReady (s : State) : Bool := !s.busy

/-- `tx_bits`, with `tx_bits[199 - i] = B[i]`. -/
def txBits (b : Bits) : BitVec 200 := BitVec.ofNat 200 (bitsToNat b)

/-- `tx_repeat`. -/
def txRepeat : BitVec 3 := BitVec.ofNat 3 Config.repeatCount

end Sys2Proof.Machine
end

