-- ==== Sys2Proof/Machine/Checksum.lean ====
section
/-! DEFINITION. Machine/Checksum.lean: the operations of checksum_ecc_generator (42_checksum_ecc.md). -/

namespace Sys2Proof.Machine

/-- ECC1_HIGH (rule R143). -/
def execEcc1High (hi lo : Nibble) (s : State) : Result := give (.nibble (ecc1High hi lo)) s

/-- ECC1_LOW (rule R144). -/
def execEcc1Low (hi lo : Nibble) (s : State) : Result := give (.nibble (ecc1Low hi lo)) s

/-- ECC2_HIGH (rule R145). -/
def execEcc2High (hi lo : Nibble) (s : State) : Result := give (.nibble (ecc2High hi lo)) s

/-- ECC2_LOW (rule R146). -/
def execEcc2Low (hi lo : Nibble) (s : State) : Result := give (.nibble (ecc2Low hi lo)) s

/-- ECC1 (rule R144). -/
def execEcc1 (w : Word) (s : State) : Result := give (.word (ecc1 w)) s

/-- ECC2 (rule R147). -/
def execEcc2 (w : Word) (s : State) : Result := give (.word (ecc2 w)) s

end Sys2Proof.Machine
end

