-- ==== Sys2Proof/Machine/Framer.lean ====
section
/-! DEFINITION. Machine/Framer.lean: the operations of symbol_framer (43_symbol_framer.md). -/

namespace Sys2Proof.Machine

/-- PARITY (rule R160). -/
def execParity (w : Word) (s : State) : Result := give (.bit (parity w)) s

/-- FRAME (rule R161). -/
def execFrame (w : Word) (s : State) : Result := give (.symbols (frame w)) s

/-- TAIL (rule R163). -/
def execTail (s : State) : Result := give (.symbols tail) s

/-- SYMSEQ (rule R164). -/
def execSymseq (p : Packet) (s : State) : Result := give (.symbols (symseq p)) s

end Sys2Proof.Machine
end

