-- ==== Sys2Proof/Machine/HostOps.lean ====
section
/-! DEFINITION. Machine/HostOps.lean: the operations of the host: UPDATE and its written forms, RESET, GET
(40_state_update.md). -/

namespace Sys2Proof.Machine

/-- UPDATE (rule R102). -/
def execUpdate (u : Update) (s : State) : Result := runUpdate u s

/-- SET_PILOT (rule R106): UPDATE with `pilot` selected. -/
def execSetPilot (v : Bool) (s : State) : Result := runUpdate { pilot := some v } s

/-- SET_LIGHT (rule R107). -/
def execSetLight (n : Int) (s : State) : Result := runUpdate { light := some n } s

/-- SET_THERMOSTAT (rule R108). -/
def execSetThermostat (v : Bool) (s : State) : Result := runUpdate { thermostat := some v } s

/-- SET_POWER (rule R109). -/
def execSetPower (v : Bool) (s : State) : Result := runUpdate { power := some v } s

/-- SET_FRONT (rule R110). -/
def execSetFront (v : Bool) (s : State) : Result := runUpdate { front := some v } s

/-- SET_FAN (rule R111). -/
def execSetFan (n : Int) (s : State) : Result := runUpdate { fan := some n } s

/-- SET_AUX (rule R112). -/
def execSetAux (v : Bool) (s : State) : Result := runUpdate { aux := some v } s

/-- SET_FLAME (rule R113). -/
def execSetFlame (n : Int) (s : State) : Result := runUpdate { flame := some n } s

/-- RESEND (rule R114): the empty update, which encodes and emits the registers as they are. -/
def execResend (s : State) : Result := runUpdate {} s

/-- RESET (rule R100). -/
def execReset (w0 w1 w2 : Word) (s : State) : Result := runReset w0 w1 w2 s

/-- GET (rule R115): the registers are the response; accepted at any time, no side effect (20_memory.md rules R59 and
R63). -/
def execGet (s : State) : Result := .next (observe (.snapshot s.dev) s)

end Sys2Proof.Machine
end

