-- ==== Sys2Proof/Machine/LineCoder.lean ====
section
/-! DEFINITION. Machine/LineCoder.lean: the operations of manchester_line_coder and the whole ENCODE
(44_line_coder.md). -/

namespace Sys2Proof.Machine

/-- LINECODE of SYNC (rule R180). -/
def execLinecodeSync (s : State) : Result := give (.bits (linecode .sync)) s

/-- LINECODE of ZERO (rule R180). -/
def execLinecodeZero (s : State) : Result := give (.bits (linecode .zero)) s

/-- LINECODE of ONE (rule R180). -/
def execLinecodeOne (s : State) : Result := give (.bits (linecode .one)) s

/-- LINECODE of PAD (rule R180). -/
def execLinecodePad (s : State) : Result := give (.bits (linecode .pad)) s

/-- EXPAND (rule R183). -/
def execExpand (q : List Symbol) (s : State) : Result := give (.bits (expand q)) s

/-- PACK (rule R185). -/
def execPack (b : Bits) (s : State) : Result := give (.bytes (pack b)) s

/-- ENCODE of the registers (rule R186); the write of `LAST` belongs to UPDATE (rule R187). -/
def execEncode (s : State) : Result := giveUnless s.dev.badLevel (.bits (encodeDevice s.dev)) s

end Sys2Proof.Machine
end

