-- ==== Sys2Proof/Machine/PacketEncoder.lean ====
section
/-! DEFINITION. Machine/PacketEncoder.lean: the operations of packet_encoder on the registers (41_packet_encoder.md). -/

namespace Sys2Proof.Machine

/-- SER (rule R121): a serial word, pad bit included, copied. -/
def execSer (i : Fin 3) (s : State) : Result := give (.word (s.dev.serial i)) s

/-- CW1 (rule R122); it reads `light` and no other level. -/
def execCw1 (s : State) : Result :=
  giveUnless (if levelOk s.dev.light then none else some .light) (.word (cw1 s.dev)) s

/-- CW2 (rule R123); it reads `fan` and `flame`. -/
def execCw2 (s : State) : Result :=
  giveUnless (if levelOk s.dev.fan then (if levelOk s.dev.flame then none else some .flame) else some .fan)
    (.word (cw2 s.dev)) s

/-- ASSEMBLE (rule R120). -/
def execAssemble (s : State) : Result := giveUnless s.dev.badLevel (.packet (assemble s.dev)) s

end Sys2Proof.Machine
end

