-- ==== Sys2Proof/Machine/Responses.lean ====
section
/-! DEFINITION. Machine/Responses.lean: giving a response to the host (30_encoding.md rule R88). An UPDATE gives its
response itself; these are the same act by itself (log 16). -/

namespace Sys2Proof.Machine

/-- RSP_OK: status `00`. -/
def execRspOk (s : State) : Result := whenIdle s fun s => .next (respond .ok s)

/-- RSP_OUT_OF_RANGE: status `01` with the field and the value (60_exceptions.md rules R221 and R222). -/
def execRspOutOfRange (f : Field) (n : Int) (s : State) : Result :=
  whenIdle s fun s => .next (raise (.outOfRange f n) s)

/-- RSP_TRANSPORT_FAILURE: status `10` (60_exceptions.md rule R223). -/
def execRspTransportFailure (s : State) : Result := whenIdle s fun s => .next (raise .transportFailure s)

end Sys2Proof.Machine
end

