-- ==== Sys2Proof/Machine/Transport.lean ====
section
/-! DEFINITION. Machine/Transport.lean: the two calls to the transport (45_emit_transport.md). -/

namespace Sys2Proof.Machine

/-- CONFIGURE (rule R201): the three constants are handed over; a second call changes nothing. Held while busy, since the
radio must not be re-initialised then (70_reset_and_hazards.md rule R258; log 12). What a failed call does is not in the
source (91_not_in_source.md N12): the model's call always succeeds (DESIGN CHOICE, unsafe; log 34). -/
def execConfigure (s : State) : Result := whenIdle s fun s => .next (setConfigured Config.transport s)

/-- EMIT (rule R202): the bits are handed over once with repeat count 4, and the transport's answer is awaited. Held
while busy: no operation may overlap another on the same radio (10_state.md rule R34; log 12). -/
def execEmit (b : Bits) (s : State) : Result := whenIdle s fun s => .next (emitThen .emit b s)

end Sys2Proof.Machine
end

