-- ==== Sys2Proof/Machine/Dispatch.lean ====
section
/-! DEFINITION. Machine/Dispatch.lean: one arm per constructor of Instr, each one direct call of its meaning. -/

namespace Sys2Proof.Machine

def exec (i : Instr) (s : State) : Host.Outcome State Fault Refusal :=
  match i with
  | .update u => Sys2Proof.Machine.execUpdate u s
  | .setPilot v => Sys2Proof.Machine.execSetPilot v s
  | .setLight n => Sys2Proof.Machine.execSetLight n s
  | .setThermostat v => Sys2Proof.Machine.execSetThermostat v s
  | .setPower v => Sys2Proof.Machine.execSetPower v s
  | .setFront v => Sys2Proof.Machine.execSetFront v s
  | .setFan n => Sys2Proof.Machine.execSetFan n s
  | .setAux v => Sys2Proof.Machine.execSetAux v s
  | .setFlame n => Sys2Proof.Machine.execSetFlame n s
  | .resend => Sys2Proof.Machine.execResend s
  | .reset w0 w1 w2 => Sys2Proof.Machine.execReset w0 w1 w2 s
  | .get => Sys2Proof.Machine.execGet s
  | .rspOk => Sys2Proof.Machine.execRspOk s
  | .rspOutOfRange f n => Sys2Proof.Machine.execRspOutOfRange f n s
  | .rspTransportFailure => Sys2Proof.Machine.execRspTransportFailure s
  | .ser k => Sys2Proof.Machine.execSer k s
  | .cw1 => Sys2Proof.Machine.execCw1 s
  | .cw2 => Sys2Proof.Machine.execCw2 s
  | .ecc1High hi lo => Sys2Proof.Machine.execEcc1High hi lo s
  | .ecc1Low hi lo => Sys2Proof.Machine.execEcc1Low hi lo s
  | .ecc2High hi lo => Sys2Proof.Machine.execEcc2High hi lo s
  | .ecc2Low hi lo => Sys2Proof.Machine.execEcc2Low hi lo s
  | .ecc1 w => Sys2Proof.Machine.execEcc1 w s
  | .ecc2 w => Sys2Proof.Machine.execEcc2 w s
  | .assemble => Sys2Proof.Machine.execAssemble s
  | .parity w => Sys2Proof.Machine.execParity w s
  | .frame w => Sys2Proof.Machine.execFrame w s
  | .tail => Sys2Proof.Machine.execTail s
  | .symseq p => Sys2Proof.Machine.execSymseq p s
  | .linecodeSync => Sys2Proof.Machine.execLinecodeSync s
  | .linecodeZero => Sys2Proof.Machine.execLinecodeZero s
  | .linecodeOne => Sys2Proof.Machine.execLinecodeOne s
  | .linecodePad => Sys2Proof.Machine.execLinecodePad s
  | .expand q => Sys2Proof.Machine.execExpand q s
  | .pack b => Sys2Proof.Machine.execPack b s
  | .encode => Sys2Proof.Machine.execEncode s
  | .configure => Sys2Proof.Machine.execConfigure s
  | .emit b => Sys2Proof.Machine.execEmit b s

end Sys2Proof.Machine
end

