-- ==== Sys2Proof/Machine/Step.lean ====
section
/-! DEFINITION. Machine/Step.lean: one step of the machine, and how an operation of the opcode table is presented to it. -/

namespace Sys2Proof.Machine

/-- One step. If a presented operation can be accepted it is decoded, leaves the queue and is executed; else, while a
sequence is in flight, the transport goes on with it; else the block is idle and stays as it is (20_memory.md rules R61
and R63; log 13, log 19). -/
def step (s : State) : Host.Outcome State Fault Refusal :=
  match pick s.busy s.requests with
  | some (r, rest) =>
    match decode r with
    | .ok i => exec i (setRequests rest s)
    | .error e => .fault (.notAWord e)
  | none => .next (if s.busy then transportStep s else s)

/-- `s` with a word of the opcode table presented as the oldest request, so that the next step of an idle machine runs
it; it stands for the host presenting the operation (log 2, log 3). -/
def State.withFetchWord (s : State) (nbits w : Nat) : State :=
  { s with requests := tableRequest nbits w :: s.requests }

end Sys2Proof.Machine
end

