-- ==== Sys2Proof/Safety.lean ====
section
/-! DEFINITION. Safety.lean: the predicates claims are stated with: registers the codec is defined on, an idle block, the
invariant of every reachable state, the premise owed by the platform, and a run without an error response. -/

namespace Sys2Proof.Machine

/-- The register invariant: `light`, `fan` and `flame` are 0 to 6 (10_state.md rule R29). -/
abbrev Device.Valid (d : Device) : Prop := d.light.toNat ≤ 6 ∧ d.fan.toNat ≤ 6 ∧ d.flame.toNat ≤ 6

/-- Between operations: not busy, nothing in flight, no bit left to send (rules R34 and R36). -/
abbrev Idle (s : State) : Prop := s.busy = false ∧ s.flight = none ∧ s.pos = 200

/-- The invariant: valid levels (rule R29); `LAST` is none or the encoding of the registers as they are (rules R33 and
R105); `busy` exactly while a sequence is in flight (rule R34); `pos` at 200 unless one is, and then within 0 to 200, in
one of five repetitions of 200 bits, which are `LAST` if an UPDATE sent them (rules R36, R65 and R203). -/
abbrev Inv (s : State) : Prop :=
  s.dev.Valid ∧
  (∀ b ∈ s.last, b = encodeDevice s.dev) ∧
  s.busy = s.flight.isSome ∧
  (s.flight = none → s.pos = 200) ∧
  (∀ f ∈ s.flight, s.pos ≤ 200 ∧ f.rep ≤ 4 ∧ f.bits.length = 200 ∧ (f.caller = .update → s.last = some f.bits))

/-- `transport_configured`: the premise of every emit, owed by the platform (70_reset_and_hazards.md rule R256). In the model
CONFIGURE of a block that is not busy always establishes it, because its call cannot fail (log 34). -/
abbrev transportConfigured (s : State) : Prop := s.configured = some Config.transport

/-- The state claims expect after an UPDATE that committed the registers `d` and had the answer `a`: registers, `LAST`, one
emit with repeat count 4, one response, and nothing else (40_state_update.md rules R101, R104 and R105). -/
def afterUpdate (d : Device) (a : Answer) (as : List Answer) (s : State) : State :=
  { s with
    dev := d
    last := some (encodeDevice d)
    answers := as
    result := .answer a
    obs := s.obs ++ [.emit (encodeDevice d) 4,
      .response (match a with | .done => .ok | .failed => .error .transportFailure)] }

/-- The state claims expect after an error response: the response, and nothing else (60_exceptions.md rule R229). -/
def afterError (e : Exc) (s : State) : State := { s with obs := s.obs ++ [.response (.error e)] }

/-- The state claims expect after an operation that only returns a value. -/
def returning (v : Value) (s : State) : State := { s with result := v }

/-- A value of a level field that passes validation (40_state_update.md rule R103). -/
abbrev InRange (o : Option Int) : Prop := ∀ n ∈ o, 0 ≤ n ∧ n ≤ 6

/-- The seven words of a Packet in emission order (20_memory.md rule R54). -/
def packetWords (p : Packet) : List Word := [p.ser0, p.ser1, p.ser2, p.cmd1, p.cmd2, p.ecc1, p.ecc2]

/-- The operations that wait while `busy` is 1 (20_memory.md rule R63; log 12). -/
def heldInstr (i : Instr) : Bool := heldLine (encode i).line

/-- No error response has been given: errors are not sticky in the block, so a whole-run claim counts them here
(60_exceptions.md rule R232, decision D8 of 92_eei_decisions.md). -/
def noErrorResponse (obs : List Event) : Bool :=
  obs.all fun e =>
    match e with
    | .response (.error _) => false
    | .response .ok => true
    | .snapshot _ => true
    | .emit _ _ => true

/-- The emits of an observation: what was handed to the transport (00_scope.md rule R19). -/
def emitsOf (obs : List Event) : List Bits :=
  obs.filterMap fun e =>
    match e with
    | .emit b _ => some b
    | .response _ => none
    | .snapshot _ => none

end Sys2Proof.Machine
end

