-- ==== Sys2Proof/WellFormed.lean ====
section
/-! DEFINITION. WellFormed.lean: when an operation can be presented on its line: levels fit three bits, sequences have
the lengths of 30_encoding.md rule R70, and an UPDATE that has a row of its own is written as that row. -/

namespace Sys2Proof

/-- A level value fits the three bits of format U and of the response (30_encoding.md rules R87, R88, R90). -/
def fitsLevel (n : Int) : Bool := decide (0 ≤ n) && decide (n ≤ 7)

/-- As `fitsLevel`, for a field that may be unselected. -/
def fitsLevelOpt : Option Int → Bool
  | none => true
  | some n => fitsLevel n

/-- How many fields an update selects. -/
def Update.selected (u : Update) : Nat :=
  u.pilot.isSome.toNat + u.light.isSome.toNat + u.thermostat.isSome.toNat + u.power.isSome.toNat +
    u.front.isSome.toNat + u.fan.isSome.toNat + u.aux.isSome.toNat + u.flame.isSome.toNat

/-- An operation that its line can carry. UPDATE with fewer than two fields is the row RESEND or SET_<FIELD>
(rule R98), which is how the decoder writes it (log 17). -/
def Instr.wf : Instr → Bool
  | .update u => fitsLevelOpt u.light && fitsLevelOpt u.fan && fitsLevelOpt u.flame && decide (2 ≤ u.selected)
  | .setPilot _ => true
  | .setLight n => fitsLevel n
  | .setThermostat _ => true
  | .setPower _ => true
  | .setFront _ => true
  | .setFan n => fitsLevel n
  | .setAux _ => true
  | .setFlame n => fitsLevel n
  | .resend => true
  | .reset _ _ _ => true
  | .get => true
  | .rspOk => true
  | .rspOutOfRange _ n => fitsLevel n
  | .rspTransportFailure => true
  | .ser _ => true
  | .cw1 => true
  | .cw2 => true
  | .ecc1High _ _ => true
  | .ecc1Low _ _ => true
  | .ecc2High _ _ => true
  | .ecc2Low _ _ => true
  | .ecc1 _ => true
  | .ecc2 _ => true
  | .assemble => true
  | .parity _ => true
  | .frame _ => true
  | .tail => true
  | .symseq _ => true
  | .linecodeSync => true
  | .linecodeZero => true
  | .linecodeOne => true
  | .linecodePad => true
  | .expand q => decide (q.length = Config.seqSymbols)
  | .pack b => decide (b.length = Config.seqBits)
  | .encode => true
  | .configure => true
  | .emit b => decide (b.length = Config.seqBits)

end Sys2Proof
end

