-- ==== Sys2Proof/Certificates/Slice0/Obligations.lean ====
section
/-! DEFINITION. Certificates/Slice0/Obligations.lean: the statements for the provers, from the numbered rules of spec/.
`InRange`, `Inv`, `Idle`, `afterUpdate`, `afterError` and `returning` are of Safety.lean. -/

open Sys2Proof Sys2Proof.Machine

/-! ### Presenting and decoding -/

/-- Every well-formed operation is read back from the bits that present it. -/
def Obligations.EncodeDecodeRoundTrip : Prop :=
  ∀ i : Instr, i.wf = true → decode (encode i) = .ok i

/-- What the decoder gives is well-formed, whatever the line and the bits. -/
def Obligations.DecodeYieldsWellFormed : Prop :=
  ∀ (r : Request) (i : Instr), decode r = .ok i → i.wf = true

/-- Every one of the 2^22 words of format U decodes, and what it decodes to does what UPDATE of the abstract update the
word stands for does (R87, R93, R98). -/
def Obligations.EveryUpdateWordStandsForItsUpdate : Prop :=
  ∀ (u : BitVec 22) (s : State), ∃ i, decode ⟨.u, u.toNat⟩ = .ok i ∧ exec i s = exec (.update (decodeUpdate u)) s

/-- Which bit of format U selects and carries which field, a level with its most significant bit first (R87). -/
def Obligations.UpdateWordFieldLayout : Prop :=
  ∀ u : BitVec 22,
    (decodeUpdate u).pilot = (if u.getLsbD 21 then some (u.getLsbD 13) else none) ∧
    (decodeUpdate u).light = (if u.getLsbD 20 then
      some (4 * (u.getLsbD 12).toInt + 2 * (u.getLsbD 11).toInt + (u.getLsbD 10).toInt) else none) ∧
    (decodeUpdate u).thermostat = (if u.getLsbD 19 then some (u.getLsbD 9) else none) ∧
    (decodeUpdate u).power = (if u.getLsbD 18 then some (u.getLsbD 8) else none) ∧
    (decodeUpdate u).front = (if u.getLsbD 17 then some (u.getLsbD 7) else none) ∧
    (decodeUpdate u).fan = (if u.getLsbD 16 then
      some (4 * (u.getLsbD 6).toInt + 2 * (u.getLsbD 5).toInt + (u.getLsbD 4).toInt) else none) ∧
    (decodeUpdate u).aux = (if u.getLsbD 15 then some (u.getLsbD 3) else none) ∧
    (decodeUpdate u).flame = (if u.getLsbD 14 then
      some (4 * (u.getLsbD 2).toInt + 2 * (u.getLsbD 1).toInt + (u.getLsbD 0).toInt) else none)

/-- Two command words with the same select bits and the same data in the selected fields decode alike: the data of
unselected fields is ignored, whatever it holds (R93). -/
def Obligations.UnselectedDataBitsIgnored : Prop :=
  ∀ u v : BitVec 22,
    u.extractLsb' 14 8 = v.extractLsb' 14 8 →
    (u.getLsbD 21 = true → u.getLsbD 13 = v.getLsbD 13) →
    (u.getLsbD 20 = true → u.extractLsb' 10 3 = v.extractLsb' 10 3) →
    (u.getLsbD 19 = true → u.getLsbD 9 = v.getLsbD 9) →
    (u.getLsbD 18 = true → u.getLsbD 8 = v.getLsbD 8) →
    (u.getLsbD 17 = true → u.getLsbD 7 = v.getLsbD 7) →
    (u.getLsbD 16 = true → u.extractLsb' 4 3 = v.extractLsb' 4 3) →
    (u.getLsbD 15 = true → u.getLsbD 3 = v.getLsbD 3) →
    (u.getLsbD 14 = true → u.extractLsb' 0 3 = v.extractLsb' 0 3) →
    decode ⟨.u, u.toNat⟩ = decode ⟨.u, v.toNat⟩

/-- Words written out from the formats of the spec (R87, R88, R81) are read as the operations they stand for. That a table
word which fits several rows, such as the 8-bit `11`, is read as one of them is the model's choice (log 3), and so is that
a format U word with one select bit or none is SET_<FIELD> or RESEND (log 17). -/
def Obligations.WrittenOutWordsDecode : Prop :=
  decodeTableWord 24 0b1000000010000000000000 = some (.setPilot true) ∧
  decodeTableWord 24 0b0100000001010000000000 = some (.setLight 5) ∧
  decodeTableWord 24 0b0001000000000100000000 = some (.setPower true) ∧
  decodeTableWord 24 0b0000000100000000000111 = some (.setFlame 7) ∧
  decodeTableWord 24 0b0000000000000000000000 = some .resend ∧
  decodeTableWord 24 0b1110110101011011100010 =
    some (.update { pilot := some false, light := some 5, thermostat := some true, front := some true, fan := some 6,
                    flame := some 2 }) ∧
  decodeTableWord 32 0b001001011011110100000000100 = some (.reset 0b001001011 0b011110100 0b000000100) ∧
  decodeTableWord 8 0b01101111 = some (.rspOutOfRange .fan 7) ∧
  decodeTableWord 8 0b10000000 = some .rspTransportFailure ∧
  decodeTableWord 8 0b11 = some .linecodeSync

/-- The single-field forms and RESEND are the UPDATEs they are written for (R98). -/
def Obligations.SingleFieldFormsAreUpdates : Prop :=
  ∀ (s : State) (v : Bool) (n : Int),
    exec (.setPilot v) s = exec (.update { pilot := some v }) s ∧
    exec (.setLight n) s = exec (.update { light := some n }) s ∧
    exec (.setThermostat v) s = exec (.update { thermostat := some v }) s ∧
    exec (.setPower v) s = exec (.update { power := some v }) s ∧
    exec (.setFront v) s = exec (.update { front := some v }) s ∧
    exec (.setFan n) s = exec (.update { fan := some n }) s ∧
    exec (.setAux v) s = exec (.update { aux := some v }) s ∧
    exec (.setFlame n) s = exec (.update { flame := some n }) s ∧
    exec .resend s = exec (.update {}) s

/-! ### The step -/

/-- A step runs the operation it accepts: it is decoded, it leaves the queue, and the step is its `exec`. When idle the
operation accepted is the oldest. With nothing presented an idle block stays as it is (the model's choice, log 19). -/
def Obligations.StepRunsTheAcceptedOperation : Prop :=
  (∀ (s : State) (r : Request) (rest : List Request) (i : Instr),
    pick s.busy s.requests = some (r, rest) → decode r = .ok i → step s = exec i { s with requests := rest }) ∧
  (∀ (s : State) (r : Request) (rest : List Request) (i : Instr),
    s.busy = false → s.requests = r :: rest → decode r = .ok i → step s = exec i { s with requests := rest }) ∧
  (∀ s : State, s.busy = false → s.requests = [] → step s = .next s)

/-- While `busy` is 1 an operation of the held lines is held: its `exec` changes nothing, and a step with only such
operations presented, none of them lost, is the transport's (R63; which lines are held is log 12). -/
def Obligations.BusyHoldsOperations : Prop :=
  (∀ (i : Instr) (s : State), s.busy = true → heldInstr i = true → exec i s = .next s) ∧
  (∀ s : State, s.busy = true → (∀ r ∈ s.requests, heldLine r.line = true) →
    step s = .next (transportStep s) ∧ (transportStep s).requests = s.requests)

/-- A GET behind held operations is answered while the block is busy, with the registers as committed, and the held
operations keep their places (R63, R115; log 13). -/
def Obligations.GetAnsweredWhileBusy : Prop :=
  ∀ (s : State) (held rest : List Request),
    s.busy = true → (∀ r ∈ held, heldLine r.line = true) → s.requests = held ++ ⟨.snap, 0⟩ :: rest →
    step s = .next { s with requests := held ++ rest, obs := s.obs ++ [.snapshot s.dev] }

/-! ### Invariants of every step -/

/-- Every step from a state with the invariant ends in one: the levels are 0 to 6, `LAST` is the encoding of the
registers, `busy`, `pos` and the sequence in flight agree (R29, R33, R34, R36, R65). -/
def Obligations.StepKeepsInvariant : Prop :=
  ∀ s t : State, Inv s → step s = .next t → Inv t

/-- The invariant holds after a reset with any serial number. -/
def Obligations.ResetSatisfiesInvariant : Prop :=
  (∀ w0 w1 w2 : Word, Inv (State.resetWith w0 w1 w2)) ∧ Inv State.reset

/-- From a state with the invariant, with only decodable operations presented, a run of any length neither faults nor
refuses, and keeps the invariant (R29, R127, R220). -/
def Obligations.RunsNeverStop : Prop :=
  ∀ (n : Nat) (s : State), Inv s → (∀ r ∈ s.requests, ∃ i, decode r = .ok i) →
    ∃ t : State, Host.Core.run Sys2Proof.core n s = .next t ∧ Inv t

/-- The serial registers are written by RESET, with its operand, and by no other operation (R32). -/
def Obligations.SerialWrittenOnlyByReset : Prop :=
  (∀ (i : Instr) (s t : State), (∀ w0 w1 w2, i ≠ .reset w0 w1 w2) → exec i s = .next t →
    t.dev.serial0 = s.dev.serial0 ∧ t.dev.serial1 = s.dev.serial1 ∧ t.dev.serial2 = s.dev.serial2) ∧
  (∀ (s : State) (w0 w1 w2 : Word), s.busy = false → ∃ t : State, exec (.reset w0 w1 w2) s = .next t ∧
    t.dev.serial0 = w0 ∧ t.dev.serial1 = w1 ∧ t.dev.serial2 = w2)

/-- The registers and `LAST` are written by RESET and the update forms and by no other operation (R51, R33). -/
def Obligations.RegistersWrittenOnlyByUpdateAndReset : Prop :=
  ∀ (i : Instr) (s t : State), (encode i).line ≠ .u → (encode i).line ≠ .rst → exec i s = .next t →
    t.dev = s.dev ∧ t.last = s.last

/-- Only the update forms, EMIT by itself and no other operation hand a sequence to the transport, and an update form
hands over at most one, the encoding of the registers it leaves (R105, R252). -/
def Obligations.EmitsComeFromUpdateAndEmit : Prop :=
  ∀ (i : Instr) (s t : State), exec i s = .next t →
    ((encode i).line ≠ .u → (encode i).line ≠ .emit → emitsOf t.obs = emitsOf s.obs) ∧
    ((encode i).line = .u → emitsOf t.obs = emitsOf s.obs ∨ emitsOf t.obs = emitsOf s.obs ++ [encodeDevice t.dev])

/-! ### UPDATE, RESET, GET -/

/-- The commit: each selected register takes its value, a level the number it was given; each other register and the
serial words keep theirs; valid levels stay valid (R104). -/
def Obligations.CommitWritesTheSelectedRegisters : Prop :=
  ∀ (u : Update) (d : Device),
    (∀ v, u.pilot = some v → (d.commit u).pilot = v) ∧ (u.pilot = none → (d.commit u).pilot = d.pilot) ∧
    (∀ n, u.light = some n → 0 ≤ n → n ≤ 6 → ((d.commit u).light.toNat : Int) = n) ∧
    (u.light = none → (d.commit u).light = d.light) ∧
    (∀ v, u.thermostat = some v → (d.commit u).thermostat = v) ∧
    (u.thermostat = none → (d.commit u).thermostat = d.thermostat) ∧
    (∀ v, u.power = some v → (d.commit u).power = v) ∧ (u.power = none → (d.commit u).power = d.power) ∧
    (∀ v, u.front = some v → (d.commit u).front = v) ∧ (u.front = none → (d.commit u).front = d.front) ∧
    (∀ n, u.fan = some n → 0 ≤ n → n ≤ 6 → ((d.commit u).fan.toNat : Int) = n) ∧
    (u.fan = none → (d.commit u).fan = d.fan) ∧
    (∀ v, u.aux = some v → (d.commit u).aux = v) ∧ (u.aux = none → (d.commit u).aux = d.aux) ∧
    (∀ n, u.flame = some n → 0 ≤ n → n ≤ 6 → ((d.commit u).flame.toNat : Int) = n) ∧
    (u.flame = none → (d.commit u).flame = d.flame) ∧
    (d.commit u).serial0 = d.serial0 ∧ (d.commit u).serial1 = d.serial1 ∧ (d.commit u).serial2 = d.serial2 ∧
    (d.Valid → InRange u.light → InRange u.fan → InRange u.flame → (d.commit u).Valid)

/-- UPDATE with valid levels and an answering transport: commit, `LAST`, one emit with repeat count 4, and the response
OK or TransportFailure by the answer; a failure undoes nothing; nothing else changes (R101, R102, R105, R230). -/
def Obligations.UpdateCommitsEncodesAndEmits : Prop :=
  ∀ (u : Update) (s : State) (as : List Answer),
    Idle s → InRange u.light → InRange u.fan → InRange u.flame → (s.dev.commit u).Valid →
    (s.answers = .done :: as → exec (.update u) s = .next
      { s with
        dev := s.dev.commit u, last := some (encodeDevice (s.dev.commit u)), answers := as, result := .answer .done
        obs := s.obs ++ [.emit (encodeDevice (s.dev.commit u)) 4, .response .ok] }) ∧
    (s.answers = .failed :: as → exec (.update u) s = .next
      { s with
        dev := s.dev.commit u, last := some (encodeDevice (s.dev.commit u)), answers := as, result := .answer .failed
        obs := s.obs ++ [.emit (encodeDevice (s.dev.commit u)) 4, .response (.error .transportFailure)] })

/-- UPDATE with valid levels while the transport has not answered: committed, encoded and handed over, `busy` 1, the
first bit the next to leave, no response yet (R34, R36, R62, R206). -/
def Obligations.UnansweredUpdateIsInFlight : Prop :=
  ∀ (u : Update) (s : State),
    Idle s → InRange u.light → InRange u.fan → InRange u.flame → (s.dev.commit u).Valid → s.answers = [] →
    exec (.update u) s = .next
      { s with
        dev := s.dev.commit u, last := some (encodeDevice (s.dev.commit u)), busy := true, pos := 0
        flight := some ⟨encodeDevice (s.dev.commit u), 0, .update⟩
        obs := s.obs ++ [.emit (encodeDevice (s.dev.commit u)) 4] }

/-- UPDATE with an invalid level: the first invalid field in the order light, fan, flame is reported with its value, and
nothing else changes: no register, not `LAST`, no emit (R103, R228, R229). -/
def Obligations.UpdateWithInvalidLevelIsRejectedWhole : Prop :=
  ∀ (u : Update) (s : State) (n : Int), Idle s → ¬ (0 ≤ n ∧ n ≤ 6) →
    (u.light = some n → exec (.update u) s = .next (afterError (.outOfRange .light n) s)) ∧
    (InRange u.light → u.fan = some n → exec (.update u) s = .next (afterError (.outOfRange .fan n) s)) ∧
    (InRange u.light → InRange u.fan → u.flame = some n →
      exec (.update u) s = .next (afterError (.outOfRange .flame n) s))

/-- At the 22-bit interface the only value an UPDATE can be rejected for is 7, in light, fan or flame (R221). -/
def Obligations.InterfaceRejectsOnlySeven : Prop :=
  ∀ (u : BitVec 22) (s t : State) (f : Field) (n : Int), s.busy = false →
    exec (.update (decodeUpdate u)) s = .next t → t.obs = s.obs ++ [.response (.error (.outOfRange f n))] →
    n = 7 ∧ (f = .light ∨ f = .fan ∨ f = .flame)

/-- The single-field forms of boolean fields and RESEND, for either answer of the transport: one register is written, or
none, and the registers are encoded and emitted (R106, R108, R109, R110, R112, R114). -/
def Obligations.BooleanFormsAndResendTransmit : Prop :=
  ∀ (s : State) (v : Bool) (a : Answer) (as : List Answer), Idle s → s.dev.Valid → s.answers = a :: as →
    exec (.setPilot v) s = .next (afterUpdate { s.dev with pilot := v } a as s) ∧
    exec (.setThermostat v) s = .next (afterUpdate { s.dev with thermostat := v } a as s) ∧
    exec (.setPower v) s = .next (afterUpdate { s.dev with power := v } a as s) ∧
    exec (.setFront v) s = .next (afterUpdate { s.dev with front := v } a as s) ∧
    exec (.setAux v) s = .next (afterUpdate { s.dev with aux := v } a as s) ∧
    exec .resend s = .next (afterUpdate s.dev a as s)

/-- The single-field forms of level fields: on 0 to 6, for either answer of the transport, the register is written and the
registers are encoded and emitted; on any other value the error response and nothing else (R107, R111, R113). -/
def Obligations.LevelFormsTransmitOrReject : Prop :=
  (∀ (s : State) (l : Level) (a : Answer) (as : List Answer),
    Idle s → s.dev.Valid → s.answers = a :: as → l.toNat ≤ 6 →
    exec (.setLight (l.toNat : Int)) s = .next (afterUpdate { s.dev with light := l } a as s) ∧
    exec (.setFan (l.toNat : Int)) s = .next (afterUpdate { s.dev with fan := l } a as s) ∧
    exec (.setFlame (l.toNat : Int)) s = .next (afterUpdate { s.dev with flame := l } a as s)) ∧
  (∀ (s : State) (n : Int), Idle s → n < 0 ∨ 6 < n →
    exec (.setLight n) s = .next (afterError (.outOfRange .light n) s) ∧
    exec (.setFan n) s = .next (afterError (.outOfRange .fan n) s) ∧
    exec (.setFlame n) s = .next (afterError (.outOfRange .flame n) s))

/-- RESET of a block that is not busy: every register and the hidden state at its reset value, the serial words those of
the operand, and no event; while busy it is held (R100, R252). -/
def Obligations.ResetSetsEveryRegisterAndEmitsNothing : Prop :=
  ∀ (s : State) (w0 w1 w2 : Word),
    (s.busy = true → exec (.reset w0 w1 w2) s = .next s) ∧
    (s.busy = false → exec (.reset w0 w1 w2) s = .next
      { s with
        dev := { pilot := true, light := 0, thermostat := false, power := false, front := false, fan := 0, aux := false,
                 flame := 0, serial0 := w0, serial1 := w1, serial2 := w2 }
        last := none, busy := false, pos := 200, flight := none })

/-- The machine after reset: the values of the spec's table; nothing presented, answered or observed, no configured
transport and the reference serial number, which are the model's choices (log 1, log 2, log 4, log 7, log 14). -/
def Obligations.ResetStateHoldsTheResetValues : Prop :=
  State.reset.dev = ⟨true, 0, false, false, false, 0, false, 0, 0b001001011, 0b011110100, 0b000000100⟩ ∧
  State.reset.last = none ∧ State.reset.busy = false ∧ State.reset.pos = 200 ∧ State.reset.flight = none ∧
  State.reset.requests = [] ∧ State.reset.answers = [] ∧ State.reset.configured = none ∧ State.reset.obs = [] ∧
  State.reset.result = .nothing

/-- GET gives the registers as its response and changes nothing else, busy or not (R59, R115). -/
def Obligations.GetReturnsTheRegisters : Prop :=
  ∀ s : State, exec .get s = .next { s with obs := s.obs ++ [.snapshot s.dev] }

/-- The 41 bits of the snapshot: the control bits in the order of format U's data half, then the serial words (R88); and the
register index space, `x[0]` to `x[10]` in the spec's order, each zero-extended (R20, R51). -/
def Obligations.SnapshotAndRegisterLayout : Prop :=
  ∀ d : Device,
    d.snapshotWord.getLsbD 40 = d.pilot ∧ d.snapshotWord.extractLsb' 37 3 = d.light ∧
    d.snapshotWord.getLsbD 36 = d.thermostat ∧ d.snapshotWord.getLsbD 35 = d.power ∧
    d.snapshotWord.getLsbD 34 = d.front ∧ d.snapshotWord.extractLsb' 31 3 = d.fan ∧
    d.snapshotWord.getLsbD 30 = d.aux ∧ d.snapshotWord.extractLsb' 27 3 = d.flame ∧
    d.snapshotWord.extractLsb' 18 9 = d.serial0 ∧ d.snapshotWord.extractLsb' 9 9 = d.serial1 ∧
    d.snapshotWord.extractLsb' 0 9 = d.serial2 ∧
    ((List.finRange 11).map fun i => (d.read i).toNat) =
      [d.pilot.toNat, d.light.toNat, d.thermostat.toNat, d.power.toNat, d.front.toNat, d.fan.toNat, d.aux.toNat,
       d.flame.toNat, d.serial0.toNat, d.serial1.toNat, d.serial2.toNat]

/-! ### Responses -/

/-- Each response by itself, on an idle block: the host has it and nothing else changes (R88, R220; log 16). -/
def Obligations.ResponsesReachTheHost : Prop :=
  ∀ (s : State) (f : Field) (n : Int), Idle s →
    exec .rspOk s = .next { s with obs := s.obs ++ [.response .ok] } ∧
    exec (.rspOutOfRange f n) s = .next (afterError (.outOfRange f n) s) ∧
    exec .rspTransportFailure s = .next (afterError .transportFailure s)

/-- Format RSP: status, error field and error value, and no response has status 11 (R88, R93). -/
def Obligations.ResponseWordFormat : Prop :=
  Response.word .ok = some 0b00000000 ∧ Response.word (.error .transportFailure) = some 0b10000000 ∧
  (∀ (f : Field) (v : BitVec 3), ∃ r, Response.word (.error (.outOfRange f (v.toNat : Int))) = some r ∧
    r.extractLsb' 6 2 = 0b01 ∧ r.extractLsb' 3 3 = f.index ∧ r.extractLsb' 0 3 = v) ∧
  (∀ (p : Response) (r : BitVec 8), p.word = some r → r.extractLsb' 6 2 ≠ 0b11)

/-! ### packet_encoder -/

/-- SER returns the serial word of its index, all nine bits (R121). -/
def Obligations.SerCopiesTheSerialWord : Prop :=
  ∀ s : State,
    exec (.ser 0) s = .next (returning (.word s.dev.serial0) s) ∧
    exec (.ser 1) s = .next (returning (.word s.dev.serial1) s) ∧
    exec (.ser 2) s = .next (returning (.word s.dev.serial2) s)

/-- CW1 returns `256 pilot + 32 light + 4 thermostat + 2 power` (R122). -/
def Obligations.CommandWord1OfTheRegisters : Prop :=
  ∀ s : State, s.dev.light.toNat ≤ 6 →
    ∃ w : Word, exec .cw1 s = .next (returning (.word w) s) ∧
      w.toNat = 256 * s.dev.pilot.toNat + 32 * s.dev.light.toNat + 4 * s.dev.thermostat.toNat + 2 * s.dev.power.toNat

/-- CW2 returns `256 front + 32 fan + 16 aux + 2 flame` (R123). -/
def Obligations.CommandWord2OfTheRegisters : Prop :=
  ∀ s : State, s.dev.fan.toNat ≤ 6 → s.dev.flame.toNat ≤ 6 →
    ∃ w : Word, exec .cw2 s = .next (returning (.word w) s) ∧
      w.toNat = 256 * s.dev.front.toNat + 32 * s.dev.fan.toNat + 16 * s.dev.aux.toNat + 2 * s.dev.flame.toNat

/-- Where a level register holds 7, which the spec leaves undefined, the operations that encode it are refused by
`invalidLevel`: CW1 and CW2 with that field, ASSEMBLE, ENCODE and UPDATE with some field, which is not fixed here (R127; log 11). -/
def Obligations.LevelSevenIsNotEncoded : Prop :=
  (∀ s : State, s.dev.light = 7 → exec .cw1 s = .refused (.invalidLevel .light)) ∧
  (∀ s : State, s.dev.fan = 7 → exec .cw2 s = .refused (.invalidLevel .fan)) ∧
  (∀ s : State, s.dev.fan.toNat ≤ 6 → s.dev.flame = 7 → exec .cw2 s = .refused (.invalidLevel .flame)) ∧
  (∀ s : State, ¬ s.dev.Valid → ∃ f, exec .assemble s = .refused (.invalidLevel f) ∧
    exec .encode s = .refused (.invalidLevel f)) ∧
  (∀ (s : State) (u : Update), s.busy = false → InRange u.light → InRange u.fan → InRange u.flame →
    ¬ (s.dev.commit u).Valid → ∃ f, exec (.update u) s = .refused (.invalidLevel f))

/-- ASSEMBLE returns the seven words in their order, the ECC words made from the command words (R120, R124). -/
def Obligations.AssembleReturnsTheSevenWords : Prop :=
  ∀ s : State, s.dev.Valid →
    exec .assemble s = .next (returning (.packet
      ⟨s.dev.serial0, s.dev.serial1, s.dev.serial2, cw1 s.dev, cw2 s.dev, ecc1 (cw1 s.dev), ecc2 (cw2 s.dev)⟩) s)

/-- Distinct registers give distinct Packets (R126). -/
def Obligations.AssembleIsInjective : Prop :=
  ∀ d e : Device, assemble d = assemble e → d = e

/-- Which registers reach which words of the Packet (R125, R149). -/
def Obligations.PacketWordsAreIndependent : Prop :=
  ∀ d e : Device,
    (d.pilot = e.pilot → d.light = e.light → d.thermostat = e.thermostat → d.power = e.power →
      (assemble d).cmd1 = (assemble e).cmd1 ∧ (assemble d).ecc1 = (assemble e).ecc1) ∧
    (d.front = e.front → d.fan = e.fan → d.aux = e.aux → d.flame = e.flame →
      (assemble d).cmd2 = (assemble e).cmd2 ∧ (assemble d).ecc2 = (assemble e).ecc2) ∧
    (d.serial0 = e.serial0 → d.serial1 = e.serial1 → d.serial2 = e.serial2 →
      (assemble d).ser0 = (assemble e).ser0 ∧ (assemble d).ser1 = (assemble e).ser1 ∧
      (assemble d).ser2 = (assemble e).ser2)

/-! ### checksum_ecc_generator -/

/-- `shl4` doubles modulo 16: each bit moves up one, the top bit is lost, bit 0 is 0 (R141). -/
def Obligations.Shl4DropsTheTopBit : Prop :=
  ∀ x : Nibble, (shl4 x).toNat = 2 * x.toNat % 16 ∧ (shl4 x).getLsbD 3 = x.getLsbD 2 ∧
    (shl4 x).getLsbD 2 = x.getLsbD 1 ∧ (shl4 x).getLsbD 1 = x.getLsbD 0 ∧ (shl4 x).getLsbD 0 = false

/-- The two nibbles of each ECC word, bit by bit (R143, R144, R145, R146). -/
def Obligations.EccNibbles : Prop :=
  ∀ (s : State) (h l : Nibble),
    (∃ n : Nibble, exec (.ecc1High h l) s = .next (returning (.nibble n) s) ∧
      n.getLsbD 3 = !(h.getLsbD 3 ^^ h.getLsbD 2 ^^ l.getLsbD 2) ∧
      n.getLsbD 2 = !(h.getLsbD 2 ^^ h.getLsbD 1 ^^ l.getLsbD 1) ∧
      n.getLsbD 1 = (h.getLsbD 1 ^^ h.getLsbD 0 ^^ l.getLsbD 0) ∧ n.getLsbD 0 = !(h.getLsbD 0)) ∧
    (∃ n : Nibble, exec (.ecc1Low h l) s = .next (returning (.nibble n) s) ∧
      ∀ k, k < 4 → n.getLsbD k = (h.getLsbD k ^^ l.getLsbD k)) ∧
    (∃ n : Nibble, exec (.ecc2High h l) s = .next (returning (.nibble n) s) ∧
      n.getLsbD 3 = (h.getLsbD 3 ^^ h.getLsbD 2 ^^ l.getLsbD 2) ∧
      n.getLsbD 2 = (h.getLsbD 2 ^^ h.getLsbD 1 ^^ l.getLsbD 1) ∧
      n.getLsbD 1 = (h.getLsbD 1 ^^ h.getLsbD 0 ^^ l.getLsbD 0) ∧ n.getLsbD 0 = h.getLsbD 0) ∧
    (∃ n : Nibble, exec (.ecc2Low h l) s = .next (returning (.nibble n) s) ∧
      n.getLsbD 3 = (h.getLsbD 3 ^^ l.getLsbD 3) ∧ n.getLsbD 2 = !(h.getLsbD 2 ^^ l.getLsbD 2) ∧
      n.getLsbD 1 = !(h.getLsbD 1 ^^ l.getLsbD 1) ∧ n.getLsbD 0 = !(h.getLsbD 0 ^^ l.getLsbD 0))

/-- ECC1 and ECC2 of any word: the nibbles of the formulas, cut from the word without its pad bit, and pad 0 (R142, R144,
R147). -/
def Obligations.EccWordsOfACommandWord : Prop :=
  ∀ (s : State) (w : Word),
    (∃ e : Word, exec (.ecc1 w) s = .next (returning (.word e) s) ∧
      e.extractLsb' 5 4 = ecc1High (w.extractLsb' 5 4) (w.extractLsb' 1 4) ∧
      e.extractLsb' 1 4 = ecc1Low (w.extractLsb' 5 4) (w.extractLsb' 1 4) ∧ e.getLsbD 0 = false) ∧
    (∃ e : Word, exec (.ecc2 w) s = .next (returning (.word e) s) ∧
      e.extractLsb' 5 4 = ecc2High (w.extractLsb' 5 4) (w.extractLsb' 1 4) ∧
      e.extractLsb' 1 4 = ecc2Low (w.extractLsb' 5 4) (w.extractLsb' 1 4) ∧ e.getLsbD 0 = false)

/-- The two ECC words of a Packet in terms of the registers, bit by bit (R144, R147). -/
def Obligations.EccWordsOfTheRegisters : Prop :=
  ∀ d : Device,
    contentBits (assemble d).ecc1 =
      [!(d.pilot ^^ d.light.getLsbD 2), !(d.light.getLsbD 2 ^^ d.light.getLsbD 1 ^^ d.thermostat),
       d.light.getLsbD 1 ^^ d.light.getLsbD 0 ^^ d.power, !(d.light.getLsbD 0), d.pilot, d.light.getLsbD 2,
       d.light.getLsbD 1 ^^ d.thermostat, d.light.getLsbD 0 ^^ d.power, false] ∧
    contentBits (assemble d).ecc2 =
      [d.front ^^ d.fan.getLsbD 2 ^^ d.flame.getLsbD 2, d.fan.getLsbD 2 ^^ d.fan.getLsbD 1 ^^ d.flame.getLsbD 1,
       d.fan.getLsbD 1 ^^ d.fan.getLsbD 0 ^^ d.flame.getLsbD 0, d.fan.getLsbD 0, d.front ^^ d.aux,
       !(d.fan.getLsbD 2 ^^ d.flame.getLsbD 2), !(d.fan.getLsbD 1 ^^ d.flame.getLsbD 1),
       !(d.fan.getLsbD 0 ^^ d.flame.getLsbD 0), false]

/-- `shl4` distributes over exclusive or, each ECC map has the spec's other form and is undone by the spec's inverse, and
so is a bijection on the 256 data values (R151). -/
def Obligations.EccMapsAreUndone : Prop :=
  (∀ h l : Nibble,
    shl4 (h ^^^ l) = shl4 h ^^^ shl4 l ∧
    ecc1High h l = 0xD#4 ^^^ h ^^^ shl4 (ecc1Low h l) ∧ ecc2High h l = h ^^^ shl4 (ecc2Low h l) ^^^ 0xE#4 ∧
    h = ecc1High h l ^^^ 0xD#4 ^^^ shl4 (ecc1Low h l) ∧ l = h ^^^ ecc1Low h l ∧
    h = ecc2High h l ^^^ 0xE#4 ^^^ shl4 (ecc2Low h l) ∧ l = h ^^^ ecc2Low h l ^^^ 0x7#4) ∧
  Function.Bijective (fun p : Nibble × Nibble => (ecc1High p.1 p.2, ecc1Low p.1 p.2)) ∧
  Function.Bijective (fun p : Nibble × Nibble => (ecc2High p.1 p.2, ecc2Low p.1 p.2))

/-- Flipping one of the eight data bits of a command word changes its ECC word, and flipping the pad bit does not
(R150). -/
def Obligations.FlippedDataBitChangesTheEccWord : Prop :=
  ∀ w : Word,
    (∀ k, 1 ≤ k → k ≤ 8 → ecc1 (w ^^^ BitVec.twoPow 9 k) ≠ ecc1 w ∧ ecc2 (w ^^^ BitVec.twoPow 9 k) ≠ ecc2 w) ∧
    ecc1 (w ^^^ BitVec.twoPow 9 0) = ecc1 w ∧ ecc2 (w ^^^ BitVec.twoPow 9 0) = ecc2 w

/-! ### symbol_framer -/

/-- PARITY of a word is the exclusive or of its nine bits, which is their number of ones modulo 2, and FRAME is the
thirteen symbols (R160, R161). -/
def Obligations.ParityAndFrameOfAWord : Prop :=
  ∀ (s : State) (w : Word),
    ∃ p : Bool,
      p = (w.getLsbD 8 ^^ w.getLsbD 7 ^^ w.getLsbD 6 ^^ w.getLsbD 5 ^^ w.getLsbD 4 ^^ w.getLsbD 3 ^^ w.getLsbD 2 ^^
        w.getLsbD 1 ^^ w.getLsbD 0) ∧
      p.toNat = ((List.range 9).countP fun k => w.getLsbD k) % 2 ∧
      exec (.parity w) s = .next (returning (.bit p) s) ∧
      exec (.frame w) s = .next (returning (.symbols
        [.sync, .one, sym (w.getLsbD 8), sym (w.getLsbD 7), sym (w.getLsbD 6), sym (w.getLsbD 5), sym (w.getLsbD 4),
         sym (w.getLsbD 3), sym (w.getLsbD 2), sym (w.getLsbD 1), sym (w.getLsbD 0), sym p, .one]) s)

/-- TAIL is nine PAD symbols, and SYMSEQ the seven frames in Packet order and then the tail (R163, R164). -/
def Obligations.TailAndSymbolSequence : Prop :=
  ∀ (s : State) (p : Packet),
    exec .tail s = .next (returning (.symbols [.pad, .pad, .pad, .pad, .pad, .pad, .pad, .pad, .pad]) s) ∧
    exec (.symseq p) s = .next (returning (.symbols ((packetWords p).flatMap frame ++ List.replicate 9 .pad)) s)

/-- Every position of the symbol sequence (R165). -/
def Obligations.SymbolPositions : Prop :=
  ∀ p : Packet,
    (∀ (k : Nat) (w : Word), (packetWords p)[k]? = some w →
      (symseq p)[13 * k]? = some .sync ∧ (symseq p)[13 * k + 1]? = some .one ∧
      (∀ i, i ≤ 8 → (symseq p)[13 * k + 2 + i]? = some (sym (w.getLsbD (8 - i)))) ∧
      (symseq p)[13 * k + 11]? = some (sym (parity w)) ∧ (symseq p)[13 * k + 12]? = some .one) ∧
    (∀ t, t ≤ 8 → (symseq p)[91 + t]? = some .pad)

/-- Seven SYNC, nine PAD and eighty-four data symbols, SYNC and PAD exactly where they belong, and an even number of ONE
among the ten symbols of content and parity of each frame (R166). -/
def Obligations.SymbolCounts : Prop :=
  ∀ p : Packet,
    (symseq p).count .sync = 7 ∧ (symseq p).count .pad = 9 ∧ (symseq p).count .zero + (symseq p).count .one = 84 ∧
    (∀ i, (symseq p)[i]? = some .sync ↔ i < 91 ∧ i % 13 = 0) ∧
    (∀ i, (symseq p)[i]? = some .pad ↔ 91 ≤ i ∧ i < 100) ∧
    (∀ k, k < 7 → (symseq p)[13 * k + 1]? = some .one ∧ (symseq p)[13 * k + 12]? = some .one ∧
      ((((symseq p).drop (13 * k + 2)).take 10).count .one) % 2 = 0)

/-- Flipping one content bit of a word flips its parity (R162). -/
def Obligations.FlippedContentBitFlipsParity : Prop :=
  ∀ (w : Word) (k : Nat), k ≤ 8 → parity (w ^^^ BitVec.twoPow 9 k) = !parity w

/-! ### manchester_line_coder and ENCODE -/

/-- The line-code table (R180). -/
def Obligations.LinecodeTable : Prop :=
  ∀ s : State,
    exec .linecodeSync s = .next (returning (.bits [true, true]) s) ∧
    exec .linecodeZero s = .next (returning (.bits [false, true]) s) ∧
    exec .linecodeOne s = .next (returning (.bits [true, false]) s) ∧
    exec .linecodePad s = .next (returning (.bits [false, false]) s)

/-- EXPAND returns two bits a symbol in order, 200 for a hundred symbols, and cutting them into pairs and looking each up
gives the symbols back (R182, R183). -/
def Obligations.ExpansionIsUndoneByPairs : Prop :=
  ∀ (s : State) (q : List Symbol),
    ∃ b : Bits, exec (.expand q) s = .next (returning (.bits b) s) ∧ b.length = 2 * q.length ∧ bitsToSymbols b = q ∧
      (∀ i x, q[i]? = some x → [b[2 * i]?, b[2 * i + 1]?] = (linecode x).map some)

/-- Every bit position of an encoded sequence in closed form (R184). -/
def Obligations.EncodedBitPositions : Prop :=
  ∀ d : Device,
    (∀ (k : Nat) (w : Word), (packetWords (assemble d))[k]? = some w →
      (encodeDevice d)[26 * k]? = some true ∧ (encodeDevice d)[26 * k + 1]? = some true ∧
      (encodeDevice d)[26 * k + 2]? = some true ∧ (encodeDevice d)[26 * k + 3]? = some false ∧
      (∀ i, i ≤ 8 → (encodeDevice d)[26 * k + 4 + 2 * i]? = some (w.getLsbD (8 - i)) ∧
        (encodeDevice d)[26 * k + 5 + 2 * i]? = some (!w.getLsbD (8 - i))) ∧
      (encodeDevice d)[26 * k + 22]? = some (parity w) ∧ (encodeDevice d)[26 * k + 23]? = some (!parity w) ∧
      (encodeDevice d)[26 * k + 24]? = some true ∧ (encodeDevice d)[26 * k + 25]? = some false) ∧
    (∀ i, 182 ≤ i → i ≤ 199 → (encodeDevice d)[i]? = some false)

/-- The invariants of every encoded sequence, (a) to (g) of the rule (R189). -/
def Obligations.EncodedSequenceInvariants : Prop :=
  ∀ d e : Device,
    (encodeDevice d).length = 200 ∧ (encodeDevice d).count true = 98 ∧
    (∀ k, k ≤ 6 → ((encodeDevice d).drop (26 * k)).take 4 = [true, true, true, false] ∧
      ((encodeDevice d).drop (26 * k + 24)).take 2 = [true, false]) ∧
    (encodeDevice d).drop 182 = List.replicate 18 false ∧
    (∀ i, i < 91 → i % 13 ≠ 0 → (encodeDevice d)[2 * i]? ≠ (encodeDevice d)[2 * i + 1]?) ∧
    (∀ i, (encodeDevice d)[2 * i]? = some true → (encodeDevice d)[2 * i + 1]? = some true → i % 13 = 0) ∧
    (d.serial0 = e.serial0 → d.serial1 = e.serial1 → d.serial2 = e.serial2 →
      (encodeDevice d).take 78 = (encodeDevice e).take 78) ∧
    ({ d with serial0 := 0, serial1 := 0, serial2 := 0 } = { e with serial0 := 0, serial1 := 0, serial2 := 0 } →
      (encodeDevice d).drop 78 = (encodeDevice e).drop 78)

/-- ENCODE of valid registers returns the composition of the sub-blocks, and writes neither a register nor `LAST` (R186,
R187). -/
def Obligations.EncodeReturnsTheComposition : Prop :=
  ∀ s : State, s.dev.Valid → exec .encode s = .next (returning (.bits (expand (symseq (assemble s.dev)))) s)

/-- Registers that differ give sequences that differ (R187). -/
def Obligations.EncodeIsInjective : Prop :=
  ∀ d e : Device, encodeDevice d = encodeDevice e → d = e

/-- PACK returns 25 bytes of 200 bits, each byte's first bit its most significant (R185). -/
def Obligations.PackPutsTheFirstBitHighest : Prop :=
  ∀ (s : State) (b : Bits), b.length = 200 →
    ∃ y : List Byte, exec (.pack b) s = .next (returning (.bytes y) s) ∧ y.length = 25 ∧
      ∀ n j, n < 25 → j < 8 → (y[n]?.map fun x => x.getLsbD (7 - j)) = b[8 * n + j]?

/-- The packed form of an encoded sequence: byte 0 by the first two bits of the first serial word, bytes 23 and 24 zero
(R185, R55). -/
def Obligations.PackedEncodedSequence : Prop :=
  ∀ d : Device,
    (pack (encodeDevice d))[0]? =
      some (match d.serial0.getLsbD 8, d.serial0.getLsbD 7 with
        | false, false => (0xE5 : Byte)
        | false, true => 0xE6
        | true, false => 0xE9
        | true, true => 0xEA) ∧
    (pack (encodeDevice d))[23]? = some (0 : Byte) ∧ (pack (encodeDevice d))[24]? = some (0 : Byte) ∧
    (pack (encodeDevice d)).length = 25

/-! ### The transport -/

/-- CONFIGURE hands over the three constants, and a second call changes nothing (R201). That the call always succeeds is the
model's choice (log 34), as are the field that records it (log 14) and the hold while busy (log 12). -/
def Obligations.ConfigureHandsOverTheConstants : Prop :=
  ∀ s : State, s.busy = false →
    exec .configure s = .next { s with configured := some ⟨314973000, .askOok, 2400⟩ } ∧
    (s.configured = some ⟨314973000, .askOok, 2400⟩ → exec .configure s = .next s)

/-- EMIT by itself: the sequence is handed over once with repeat count 4; the answer is returned, and a failed one is
raised; without an answer the sequence is in flight (R202, R206; log 15). -/
def Obligations.EmitHandsOverOneCopy : Prop :=
  ∀ (s : State) (b : Bits) (as : List Answer), Idle s →
    (s.answers = .done :: as → exec (.emit b) s =
      .next { s with answers := as, result := .answer .done, obs := s.obs ++ [.emit b 4] }) ∧
    (s.answers = .failed :: as → exec (.emit b) s =
      .next { s with answers := as, result := .answer .failed,
                     obs := s.obs ++ [.emit b 4, .response (.error .transportFailure)] }) ∧
    (s.answers = [] → exec (.emit b) s =
      .next { s with busy := true, pos := 0, flight := some ⟨b, 0, .emit⟩, obs := s.obs ++ [.emit b 4] })

/-- The air carries the sequence five times with nothing between: bit `200 r + i` is bit `i` (R203, R204). -/
def Obligations.AirCarriesFiveCopies : Prop :=
  ∀ b : Bits, b.length = 200 →
    (onAir b).length = 1000 ∧ ∀ r i, r < 5 → i < 200 → (onAir b)[200 * r + i]? = b[i]?

/-- While a sequence is in flight and no answer has come, `pos` counts up by one and the bit that leaves is the next of
the air sequence; `pos` never goes past 200 (R36, R204). -/
def Obligations.PositionWalksTheSequence : Prop :=
  ∀ (s : State) (f : Flight), s.flight = some f → f.bits.length = 200 → f.rep ≤ 4 → s.answers = [] → s.pos < 200 →
    (transportStep s).pos = s.pos + 1 ∧ (transportStep s).flight = some f ∧
    ∃ b, nextBit s = some b ∧ sentBits f (s.pos + 1) = sentBits f s.pos ++ [b]

/-- The bit-by-bit transmission comes to the same as the atomic UPDATE: an UPDATE left in flight, answered failed, ends in
one step, and answered done ends when the five repetitions have left, in the state the atomic UPDATE gives (R34, R36,
R203, R206). -/
def Obligations.TransmissionRefinesTheAtomicUpdate : Prop :=
  ∀ (u : Update) (s t : State),
    Idle s → InRange u.light → InRange u.fan → InRange u.flame → s.answers = [] → s.requests = [] →
    exec (.update u) s = .next t →
    Host.Core.run Sys2Proof.core 1 (t.hear .failed) = exec (.update u) (s.hear .failed) ∧
    Host.Core.run Sys2Proof.core 1005 (t.hear .done) = exec (.update u) (s.hear .done)
end

