-- ==== Sys2Proof/Laws/Codec.lean ====
section
/-! SUPPORT. Laws/Codec.lean: the lengths of what the codec produces, the validity of levels, and numbers as bits. -/

namespace Sys2Proof

/-! ### Numbers and bits -/

@[simp] theorem natToBits_length (n w : Nat) : (natToBits n w).length = n := by
  induction n with
  | zero => rfl
  | succ n ih => simp [natToBits, ih]

/-- A bit sequence is below two to its length. -/
theorem bitsToNat_lt (b : Bits) : bitsToNat b < 2 ^ b.length := by
  induction b with
  | nil => simp [bitsToNat]
  | cons x xs ih =>
    have hx : x.toNat ≤ 1 := by cases x <;> simp
    have hm : x.toNat * 2 ^ xs.length ≤ 1 * 2 ^ xs.length := Nat.mul_le_mul_right _ hx
    simp only [bitsToNat, List.length_cons, pow_succ]
    omega

/-- What stands above the last `m` binary digits does not reach the last `n`, `n` at most `m`. -/
theorem natToBits_add_mul (n m k w : Nat) (h : n ≤ m) (hw : w < 2 ^ m) :
    natToBits n (2 ^ m * k + w) = natToBits n w := by
  induction n with
  | zero => rfl
  | succ n ih =>
    have hb : (2 ^ m * k + w).testBit n = w.testBit n := by
      rw [Nat.testBit_two_pow_mul_add k hw, if_pos (by omega)]
    simp [natToBits, hb, ih (by omega)]

/-- A bit sequence is read back from its number. -/
theorem natToBits_bitsToNat (b : Bits) : natToBits b.length (bitsToNat b) = b := by
  induction b with
  | nil => rfl
  | cons x xs ih =>
    have hlt := bitsToNat_lt xs
    have hb : (2 ^ xs.length * x.toNat + bitsToNat xs).testBit xs.length = x := by
      rw [Nat.testBit_two_pow_mul_add _ hlt, if_neg (by omega)]
      cases x <;> simp
    simp only [bitsToNat, List.length_cons, natToBits]
    rw [Nat.mul_comm x.toNat, hb, natToBits_add_mul _ _ _ _ le_rfl hlt, ih]

/-- A symbol is read back from its pair of bits (30_encoding.md rule R81). -/
@[simp] theorem ofPair_toPair (q : Symbol) : Symbol.ofPair q.toPair.1 q.toPair.2 = q := by cases q <;> rfl

@[simp] theorem symbolsToBits_length (q : List Symbol) : (symbolsToBits q).length = 2 * q.length := by
  induction q with
  | nil => rfl
  | cons x xs ih => simp [symbolsToBits, ih]; omega

/-- A symbol sequence is read back from its pairs of bits. -/
theorem bitsToSymbols_symbolsToBits (q : List Symbol) : bitsToSymbols (symbolsToBits q) = q := by
  induction q with
  | nil => rfl
  | cons x xs ih => simp [symbolsToBits, bitsToSymbols, ih]

theorem bitsToSymbols_length : ∀ b : Bits, (bitsToSymbols b).length = b.length / 2
  | [] => rfl
  | [_] => by simp [bitsToSymbols]
  | _ :: _ :: rest => by
    simp only [bitsToSymbols, List.length_cons, bitsToSymbols_length rest]
    omega

/-- The control fields and the numbers 0 to 7 correspond (rule R20). -/
@[simp] theorem ofIndex_index (f : Field) : Field.ofIndex f.index = f := by cases f <;> rfl

end Sys2Proof

namespace Sys2Proof.Machine

/-! ### Lengths -/

@[simp] theorem contentBits_length (w : Word) : (contentBits w).length = 9 := rfl

/-- Every frame has thirteen symbols (30_encoding.md rule R78). -/
@[simp] theorem frame_length (w : Word) : (frame w).length = 13 := rfl

@[simp] theorem tail_length : tail.length = 9 := rfl

/-- Every symbol sequence has a hundred symbols (rule R80). -/
@[simp] theorem symseq_length (p : Packet) : (symseq p).length = 100 := rfl

@[simp] theorem linecode_length (q : Symbol) : (linecode q).length = 2 := by cases q <;> rfl

@[simp] theorem expand_nil : expand [] = [] := rfl

@[simp] theorem expand_cons (x : Symbol) (xs : List Symbol) : expand (x :: xs) = linecode x ++ expand xs := rfl

theorem expand_append (p q : List Symbol) : expand (p ++ q) = expand p ++ expand q := by
  simp [expand]

/-- The expansion has two bits a symbol (44_line_coder.md rule R183). -/
@[simp] theorem expand_length (q : List Symbol) : (expand q).length = 2 * q.length := by
  induction q with
  | nil => rfl
  | cons x xs ih => simp [ih]; omega

/-- Every encoded sequence has 200 bits (rule R189). -/
@[simp] theorem encodeDevice_length (d : Device) : (encodeDevice d).length = 200 := by
  simp [encodeDevice]

@[simp] theorem onAir_length (b : Bits) : (onAir b).length = 5 * b.length := by
  simp [onAir, List.replicate]
  omega

/-! ### Levels -/

theorem levelOk_iff (l : Level) : levelOk l = true ↔ l.toNat ≤ 6 := by simp [levelOk]

theorem levelValid_iff (n : Int) : levelValid n = true ↔ 0 ≤ n ∧ n ≤ 6 := by
  unfold levelValid
  rw [Bool.and_eq_true, decide_eq_true_iff, decide_eq_true_iff, Config.levelMax]

/-- A valid value is held by a level register unchanged. -/
theorem toLevel_toNat (n : Int) (h : levelValid n = true) : ((toLevel n).toNat : Int) = n := by
  obtain ⟨h0, h6⟩ := (levelValid_iff n).mp h
  have : n = 0 ∨ n = 1 ∨ n = 2 ∨ n = 3 ∨ n = 4 ∨ n = 5 ∨ n = 6 := by omega
  rcases this with rfl | rfl | rfl | rfl | rfl | rfl | rfl <;> rfl

/-- The codec is defined on the registers exactly when their levels are valid (41_packet_encoder.md rule R127). -/
theorem badLevel_eq_none_iff (d : Device) : d.badLevel = none ↔ d.Valid := by
  unfold Device.badLevel Device.Valid
  cases h1 : levelOk d.light <;> cases h2 : levelOk d.fan <;> cases h3 : levelOk d.flame <;>
    simp_all [levelOk]

theorem invalidLevel_eq_none_iff (o : Option Int) : invalidLevel o = none ↔ ∀ n ∈ o, levelValid n = true := by
  cases o with
  | none => simp [invalidLevel]
  | some n => cases h : levelValid n <;> simp [invalidLevel, h]

/-- Stage 1 passes exactly when every selected level does (40_state_update.md rule R103). -/
theorem firstInvalid_eq_none_iff (u : Update) :
    firstInvalid u = none ↔
      invalidLevel u.light = none ∧ invalidLevel u.fan = none ∧ invalidLevel u.flame = none := by
  unfold firstInvalid
  cases invalidLevel u.light <;> cases invalidLevel u.fan <;> cases invalidLevel u.flame <;> simp

/-- A level register after the commit of a field that passed stage 1 is valid if it was before. -/
theorem commit_level_valid (o : Option Int) (l : Level) (ho : invalidLevel o = none) (hl : l.toNat ≤ 6) :
    ((o.map toLevel).getD l).toNat ≤ 6 := by
  cases o with
  | none => simpa using hl
  | some n =>
    have hn := (invalidLevel_eq_none_iff _).mp ho n rfl
    have := toLevel_toNat n hn
    have := (levelValid_iff n).mp hn
    simp only [Option.map_some, Option.getD_some]
    omega

/-- The commit of an update that passed stage 1 keeps the levels valid (rule R104). -/
theorem commit_valid (u : Update) (d : Device) (hu : firstInvalid u = none) (hd : d.Valid) : (d.commit u).Valid := by
  obtain ⟨h1, h2, h3⟩ := (firstInvalid_eq_none_iff u).mp hu
  exact ⟨commit_level_valid _ _ h1 hd.1, commit_level_valid _ _ h2 hd.2.1, commit_level_valid _ _ h3 hd.2.2⟩

end Sys2Proof.Machine
end

