-- ==== Sys2Proof/Laws/State.lean ====
section
/-! SUPPORT. Laws/State.lean: what each plain update of the state does to each field, one lemma a field, each true by
rfl. -/

namespace Sys2Proof.Machine

/-! ### observe -/

@[simp] theorem observe_dev (e : Event) (s : State) : (observe e s).dev = s.dev := rfl
@[simp] theorem observe_last (e : Event) (s : State) : (observe e s).last = s.last := rfl
@[simp] theorem observe_busy (e : Event) (s : State) : (observe e s).busy = s.busy := rfl
@[simp] theorem observe_pos (e : Event) (s : State) : (observe e s).pos = s.pos := rfl
@[simp] theorem observe_flight (e : Event) (s : State) : (observe e s).flight = s.flight := rfl
@[simp] theorem observe_requests (e : Event) (s : State) : (observe e s).requests = s.requests := rfl
@[simp] theorem observe_answers (e : Event) (s : State) : (observe e s).answers = s.answers := rfl
@[simp] theorem observe_configured (e : Event) (s : State) : (observe e s).configured = s.configured := rfl
@[simp] theorem observe_obs (e : Event) (s : State) : (observe e s).obs = s.obs ++ [e] := rfl
@[simp] theorem observe_result (e : Event) (s : State) : (observe e s).result = s.result := rfl

/-! ### setResult -/

@[simp] theorem setResult_dev (v : Value) (s : State) : (setResult v s).dev = s.dev := rfl
@[simp] theorem setResult_last (v : Value) (s : State) : (setResult v s).last = s.last := rfl
@[simp] theorem setResult_busy (v : Value) (s : State) : (setResult v s).busy = s.busy := rfl
@[simp] theorem setResult_pos (v : Value) (s : State) : (setResult v s).pos = s.pos := rfl
@[simp] theorem setResult_flight (v : Value) (s : State) : (setResult v s).flight = s.flight := rfl
@[simp] theorem setResult_requests (v : Value) (s : State) : (setResult v s).requests = s.requests := rfl
@[simp] theorem setResult_answers (v : Value) (s : State) : (setResult v s).answers = s.answers := rfl
@[simp] theorem setResult_configured (v : Value) (s : State) : (setResult v s).configured = s.configured := rfl
@[simp] theorem setResult_obs (v : Value) (s : State) : (setResult v s).obs = s.obs := rfl
@[simp] theorem setResult_result (v : Value) (s : State) : (setResult v s).result = v := rfl

/-! ### setDevice -/

@[simp] theorem setDevice_dev (d : Device) (b : Bits) (s : State) : (setDevice d b s).dev = d := rfl
@[simp] theorem setDevice_last (d : Device) (b : Bits) (s : State) : (setDevice d b s).last = some b := rfl
@[simp] theorem setDevice_busy (d : Device) (b : Bits) (s : State) : (setDevice d b s).busy = s.busy := rfl
@[simp] theorem setDevice_pos (d : Device) (b : Bits) (s : State) : (setDevice d b s).pos = s.pos := rfl
@[simp] theorem setDevice_flight (d : Device) (b : Bits) (s : State) : (setDevice d b s).flight = s.flight := rfl
@[simp] theorem setDevice_requests (d : Device) (b : Bits) (s : State) : (setDevice d b s).requests = s.requests := rfl
@[simp] theorem setDevice_answers (d : Device) (b : Bits) (s : State) : (setDevice d b s).answers = s.answers := rfl
@[simp] theorem setDevice_configured (d : Device) (b : Bits) (s : State) : (setDevice d b s).configured = s.configured := rfl
@[simp] theorem setDevice_obs (d : Device) (b : Bits) (s : State) : (setDevice d b s).obs = s.obs := rfl
@[simp] theorem setDevice_result (d : Device) (b : Bits) (s : State) : (setDevice d b s).result = s.result := rfl

/-! ### setIdle -/

@[simp] theorem setIdle_dev (s : State) : (setIdle s).dev = s.dev := rfl
@[simp] theorem setIdle_last (s : State) : (setIdle s).last = s.last := rfl
@[simp] theorem setIdle_busy (s : State) : (setIdle s).busy = false := rfl
@[simp] theorem setIdle_pos (s : State) : (setIdle s).pos = 200 := rfl
@[simp] theorem setIdle_flight (s : State) : (setIdle s).flight = none := rfl
@[simp] theorem setIdle_requests (s : State) : (setIdle s).requests = s.requests := rfl
@[simp] theorem setIdle_answers (s : State) : (setIdle s).answers = s.answers := rfl
@[simp] theorem setIdle_configured (s : State) : (setIdle s).configured = s.configured := rfl
@[simp] theorem setIdle_obs (s : State) : (setIdle s).obs = s.obs := rfl
@[simp] theorem setIdle_result (s : State) : (setIdle s).result = s.result := rfl

/-! ### setFlight -/

@[simp] theorem setFlight_dev (f : Flight) (s : State) : (setFlight f s).dev = s.dev := rfl
@[simp] theorem setFlight_last (f : Flight) (s : State) : (setFlight f s).last = s.last := rfl
@[simp] theorem setFlight_busy (f : Flight) (s : State) : (setFlight f s).busy = true := rfl
@[simp] theorem setFlight_pos (f : Flight) (s : State) : (setFlight f s).pos = 0 := rfl
@[simp] theorem setFlight_flight (f : Flight) (s : State) : (setFlight f s).flight = some f := rfl
@[simp] theorem setFlight_requests (f : Flight) (s : State) : (setFlight f s).requests = s.requests := rfl
@[simp] theorem setFlight_answers (f : Flight) (s : State) : (setFlight f s).answers = s.answers := rfl
@[simp] theorem setFlight_configured (f : Flight) (s : State) : (setFlight f s).configured = s.configured := rfl
@[simp] theorem setFlight_obs (f : Flight) (s : State) : (setFlight f s).obs = s.obs := rfl
@[simp] theorem setFlight_result (f : Flight) (s : State) : (setFlight f s).result = s.result := rfl

/-! ### resetBlock -/

@[simp] theorem resetBlock_dev (w0 w1 w2 : Word) (s : State) : (resetBlock w0 w1 w2 s).dev = Device.afterReset w0 w1 w2 := rfl
@[simp] theorem resetBlock_last (w0 w1 w2 : Word) (s : State) : (resetBlock w0 w1 w2 s).last = none := rfl
@[simp] theorem resetBlock_busy (w0 w1 w2 : Word) (s : State) : (resetBlock w0 w1 w2 s).busy = false := rfl
@[simp] theorem resetBlock_pos (w0 w1 w2 : Word) (s : State) : (resetBlock w0 w1 w2 s).pos = 200 := rfl
@[simp] theorem resetBlock_flight (w0 w1 w2 : Word) (s : State) : (resetBlock w0 w1 w2 s).flight = none := rfl
@[simp] theorem resetBlock_requests (w0 w1 w2 : Word) (s : State) : (resetBlock w0 w1 w2 s).requests = s.requests := rfl
@[simp] theorem resetBlock_answers (w0 w1 w2 : Word) (s : State) : (resetBlock w0 w1 w2 s).answers = s.answers := rfl
@[simp] theorem resetBlock_configured (w0 w1 w2 : Word) (s : State) : (resetBlock w0 w1 w2 s).configured = s.configured := rfl
@[simp] theorem resetBlock_obs (w0 w1 w2 : Word) (s : State) : (resetBlock w0 w1 w2 s).obs = s.obs := rfl
@[simp] theorem resetBlock_result (w0 w1 w2 : Word) (s : State) : (resetBlock w0 w1 w2 s).result = s.result := rfl

/-! ### setConfigured -/

@[simp] theorem setConfigured_dev (c : TransportConfig) (s : State) : (setConfigured c s).dev = s.dev := rfl
@[simp] theorem setConfigured_last (c : TransportConfig) (s : State) : (setConfigured c s).last = s.last := rfl
@[simp] theorem setConfigured_busy (c : TransportConfig) (s : State) : (setConfigured c s).busy = s.busy := rfl
@[simp] theorem setConfigured_pos (c : TransportConfig) (s : State) : (setConfigured c s).pos = s.pos := rfl
@[simp] theorem setConfigured_flight (c : TransportConfig) (s : State) : (setConfigured c s).flight = s.flight := rfl
@[simp] theorem setConfigured_requests (c : TransportConfig) (s : State) : (setConfigured c s).requests = s.requests := rfl
@[simp] theorem setConfigured_answers (c : TransportConfig) (s : State) : (setConfigured c s).answers = s.answers := rfl
@[simp] theorem setConfigured_configured (c : TransportConfig) (s : State) : (setConfigured c s).configured = some c := rfl
@[simp] theorem setConfigured_obs (c : TransportConfig) (s : State) : (setConfigured c s).obs = s.obs := rfl
@[simp] theorem setConfigured_result (c : TransportConfig) (s : State) : (setConfigured c s).result = s.result := rfl

/-! ### setRequests -/

@[simp] theorem setRequests_dev (rs : List Request) (s : State) : (setRequests rs s).dev = s.dev := rfl
@[simp] theorem setRequests_last (rs : List Request) (s : State) : (setRequests rs s).last = s.last := rfl
@[simp] theorem setRequests_busy (rs : List Request) (s : State) : (setRequests rs s).busy = s.busy := rfl
@[simp] theorem setRequests_pos (rs : List Request) (s : State) : (setRequests rs s).pos = s.pos := rfl
@[simp] theorem setRequests_flight (rs : List Request) (s : State) : (setRequests rs s).flight = s.flight := rfl
@[simp] theorem setRequests_requests (rs : List Request) (s : State) : (setRequests rs s).requests = rs := rfl
@[simp] theorem setRequests_answers (rs : List Request) (s : State) : (setRequests rs s).answers = s.answers := rfl
@[simp] theorem setRequests_configured (rs : List Request) (s : State) : (setRequests rs s).configured = s.configured := rfl
@[simp] theorem setRequests_obs (rs : List Request) (s : State) : (setRequests rs s).obs = s.obs := rfl
@[simp] theorem setRequests_result (rs : List Request) (s : State) : (setRequests rs s).result = s.result := rfl

/-! ### setAnswers -/

@[simp] theorem setAnswers_dev (as : List Answer) (s : State) : (setAnswers as s).dev = s.dev := rfl
@[simp] theorem setAnswers_last (as : List Answer) (s : State) : (setAnswers as s).last = s.last := rfl
@[simp] theorem setAnswers_busy (as : List Answer) (s : State) : (setAnswers as s).busy = s.busy := rfl
@[simp] theorem setAnswers_pos (as : List Answer) (s : State) : (setAnswers as s).pos = s.pos := rfl
@[simp] theorem setAnswers_flight (as : List Answer) (s : State) : (setAnswers as s).flight = s.flight := rfl
@[simp] theorem setAnswers_requests (as : List Answer) (s : State) : (setAnswers as s).requests = s.requests := rfl
@[simp] theorem setAnswers_answers (as : List Answer) (s : State) : (setAnswers as s).answers = as := rfl
@[simp] theorem setAnswers_configured (as : List Answer) (s : State) : (setAnswers as s).configured = s.configured := rfl
@[simp] theorem setAnswers_obs (as : List Answer) (s : State) : (setAnswers as s).obs = s.obs := rfl
@[simp] theorem setAnswers_result (as : List Answer) (s : State) : (setAnswers as s).result = s.result := rfl

/-! ### State.present -/

@[simp] theorem present_dev (r : Request) (s : State) : (State.present r s).dev = s.dev := rfl
@[simp] theorem present_last (r : Request) (s : State) : (State.present r s).last = s.last := rfl
@[simp] theorem present_busy (r : Request) (s : State) : (State.present r s).busy = s.busy := rfl
@[simp] theorem present_pos (r : Request) (s : State) : (State.present r s).pos = s.pos := rfl
@[simp] theorem present_flight (r : Request) (s : State) : (State.present r s).flight = s.flight := rfl
@[simp] theorem present_requests (r : Request) (s : State) : (State.present r s).requests = s.requests ++ [r] := rfl
@[simp] theorem present_answers (r : Request) (s : State) : (State.present r s).answers = s.answers := rfl
@[simp] theorem present_configured (r : Request) (s : State) : (State.present r s).configured = s.configured := rfl
@[simp] theorem present_obs (r : Request) (s : State) : (State.present r s).obs = s.obs := rfl
@[simp] theorem present_result (r : Request) (s : State) : (State.present r s).result = s.result := rfl

/-! ### State.hear -/

@[simp] theorem hear_dev (a : Answer) (s : State) : (State.hear a s).dev = s.dev := rfl
@[simp] theorem hear_last (a : Answer) (s : State) : (State.hear a s).last = s.last := rfl
@[simp] theorem hear_busy (a : Answer) (s : State) : (State.hear a s).busy = s.busy := rfl
@[simp] theorem hear_pos (a : Answer) (s : State) : (State.hear a s).pos = s.pos := rfl
@[simp] theorem hear_flight (a : Answer) (s : State) : (State.hear a s).flight = s.flight := rfl
@[simp] theorem hear_requests (a : Answer) (s : State) : (State.hear a s).requests = s.requests := rfl
@[simp] theorem hear_answers (a : Answer) (s : State) : (State.hear a s).answers = s.answers ++ [a] := rfl
@[simp] theorem hear_configured (a : Answer) (s : State) : (State.hear a s).configured = s.configured := rfl
@[simp] theorem hear_obs (a : Answer) (s : State) : (State.hear a s).obs = s.obs := rfl
@[simp] theorem hear_result (a : Answer) (s : State) : (State.hear a s).result = s.result := rfl

/-! ### Reset -/

/-- RESET of any machine leaves the registers and hidden state of `State.resetWith` (10_state.md rule R41). -/
theorem resetBlock_resetWith (w0 w1 w2 a0 a1 a2 : Word) :
    resetBlock w0 w1 w2 (State.resetWith a0 a1 a2) = State.resetWith w0 w1 w2 := rfl

end Sys2Proof.Machine
end

