-- ==== Sys2Proof/Laws/Ops.lean ====
section
/-! SUPPORT. Laws/Ops.lean: one lemma for each shared operation of Machine/Ops.lean that says once everything it can do.
Later proofs cite these and do not unfold the operation. -/

namespace Sys2Proof.Machine

/-! ### Outcomes -/

/-- `give` answers the state with the value returned, always. -/
@[simp] theorem give_eq (v : Value) (s : State) : give v s = .next (setResult v s) := rfl

@[simp] theorem giveUnless_none (v : Value) (s : State) : giveUnless none v s = .next (setResult v s) := rfl

@[simp] theorem giveUnless_some (f : Field) (v : Value) (s : State) :
    giveUnless (some f) v s = .refused (.invalidLevel f) := rfl

/-- A next state of `giveUnless` is that of `give`, with nothing bad. -/
theorem giveUnless_next {bad : Option Field} {v : Value} {s t : State} (h : giveUnless bad v s = .next t) :
    bad = none ∧ t = setResult v s := by
  cases bad with
  | none => exact ⟨rfl, by simpa using h.symm⟩
  | some f => simp at h

@[simp] theorem whenIdle_busy {s : State} (k : State → Result) (h : s.busy = true) : whenIdle s k = .next s := by
  simp [whenIdle, h]

@[simp] theorem whenIdle_idle {s : State} (k : State → Result) (h : s.busy = false) : whenIdle s k = k s := by
  simp [whenIdle, h]

/-- A next state of a held operation: the same state while busy, its own effect otherwise. -/
theorem whenIdle_next {s t : State} {k : State → Result} (h : whenIdle s k = .next t) :
    (s.busy = true ∧ t = s) ∨ (s.busy = false ∧ k s = .next t) := by
  cases hb : s.busy with
  | true => exact .inl ⟨rfl, by simpa [whenIdle, hb] using h.symm⟩
  | false => exact .inr ⟨rfl, by simpa [whenIdle, hb] using h⟩

/-! ### Responses, errors, emits -/

/-- `respond`: the block idle, the response observed, everything else as it was. -/
theorem respond_eq (r : Response) (s : State) :
    respond r s = { s with busy := false, flight := none, pos := 200, obs := s.obs ++ [.response r] } := rfl

/-- The one entry of an error (60_exceptions.md rules R229 to R231). -/
theorem raise_eq (e : Exc) (s : State) :
    raise e s = { s with busy := false, flight := none, pos := 200, obs := s.obs ++ [.response (.error e)] } := rfl

/-- `handOver`: the emit observed and the sequence in flight (45_emit_transport.md rule R202). -/
theorem handOver_eq (c : Caller) (b : Bits) (s : State) :
    handOver c b s =
      { s with busy := true, pos := 0, flight := some ⟨b, 0, c⟩, obs := s.obs ++ [.emit b 4] } := rfl

/-- `finish` for an UPDATE: the answer is returned and the response is the answer's. -/
theorem finish_update_eq (a : Answer) (s : State) :
    finish .update a s =
      { s with busy := false, flight := none, pos := 200, result := .answer a, obs := s.obs ++ [.response a.response] } := by
  cases a <;> rfl

/-- `finish` for EMIT by itself: the answer is returned, and a failed one is raised. -/
theorem finish_emit_eq (a : Answer) (s : State) :
    finish .emit a s =
      { s with busy := false, flight := none, pos := 200, result := .answer a,
               obs := s.obs ++ (if a = .failed then [.response (.error .transportFailure)] else []) } := by
  cases a with
  | done => simp [finish, setIdle, setResult]
  | failed => rfl

/-- After `finish` the block is idle, and registers, `LAST` and surroundings are as they were. -/
theorem finish_frame (c : Caller) (a : Answer) (s : State) :
    Idle (finish c a s) ∧ (finish c a s).dev = s.dev ∧ (finish c a s).last = s.last ∧
      (finish c a s).requests = s.requests ∧ (finish c a s).answers = s.answers ∧
      (finish c a s).configured = s.configured ∧ (finish c a s).result = .answer a := by
  cases c with
  | update => rw [finish_update_eq]; exact ⟨⟨rfl, rfl, rfl⟩, rfl, rfl, rfl, rfl, rfl, rfl⟩
  | emit => rw [finish_emit_eq]; exact ⟨⟨rfl, rfl, rfl⟩, rfl, rfl, rfl, rfl, rfl, rfl⟩

/-- `emitThen` with an answer at hand is complete. -/
theorem emitThen_answered {s : State} {a : Answer} {as : List Answer} (c : Caller) (b : Bits) (h : s.answers = a :: as) :
    emitThen c b s = finish c a (setAnswers as (handOver c b s)) := by
  simp [emitThen, h]

/-- `emitThen` with no answer at hand leaves the sequence in flight. -/
theorem emitThen_waiting {s : State} (c : Caller) (b : Bits) (h : s.answers = []) :
    emitThen c b s = handOver c b s := by
  simp [emitThen, h]

/-- Everything `emitThen` can do. -/
theorem emitThen_cases (c : Caller) (b : Bits) (s : State) :
    (s.answers = [] ∧ emitThen c b s = handOver c b s) ∨
    (∃ a as, s.answers = a :: as ∧ emitThen c b s = finish c a (setAnswers as (handOver c b s))) := by
  cases h : s.answers with
  | nil => exact .inl ⟨rfl, emitThen_waiting c b h⟩
  | cons a as => exact .inr ⟨a, as, rfl, emitThen_answered c b h⟩

/-! ### The transmission -/

/-- Everything `sendBit` can do: a bit leaves, the next repetition begins, or nothing is left (10_state.md rule R36). -/
theorem sendBit_cases (f : Flight) (s : State) :
    (s.pos < 200 ∧ sendBit f s = { s with pos := s.pos + 1 }) ∨
    (200 ≤ s.pos ∧ f.rep < 4 ∧ sendBit f s = { s with pos := 0, flight := some { f with rep := f.rep + 1 } }) ∨
    (200 ≤ s.pos ∧ 4 ≤ f.rep ∧ sendBit f s = s) := by
  unfold sendBit
  by_cases h1 : s.pos < 200
  · exact .inl ⟨h1, by simp [h1]⟩
  · by_cases h2 : f.rep < 4
    · exact .inr (.inl ⟨by omega, h2, by simp [h1, h2, Config.repeatCount]⟩)
    · exact .inr (.inr ⟨by omega, by omega, by simp [h1, h2, Config.repeatCount]⟩)

/-- Everything the transport's part of a step can do while `f` is in flight. -/
theorem transportStep_cases {s : State} {f : Flight} (hf : s.flight = some f) :
    (∃ as, s.answers = .failed :: as ∧ transportStep s = finish f.caller .failed (setAnswers as s)) ∨
    (∃ as, s.answers = .done :: as ∧ s.pos = 200 ∧ f.rep = 4 ∧
      transportStep s = finish f.caller .done (setAnswers as s)) ∨
    transportStep s = sendBit f s := by
  cases ha : s.answers with
  | nil => exact .inr (.inr (by simp [transportStep, hf, ha]))
  | cons a as =>
    cases a with
    | failed => exact .inl ⟨as, rfl, by simp [transportStep, hf, ha]⟩
    | done =>
      by_cases hs : s.pos = 200 ∧ f.rep = 4
      · exact .inr (.inl ⟨as, rfl, hs.1, hs.2, by simp [transportStep, hf, ha, allSent, hs, Config.repeatCount]⟩)
      · refine .inr (.inr ?_)
        have : allSent f s.pos = false := by
          rw [allSent, Bool.and_eq_false_iff, decide_eq_false_iff_not, decide_eq_false_iff_not]
          exact not_and_or.mp hs
        simp [transportStep, hf, ha, this]

@[simp] theorem transportStep_none {s : State} (hf : s.flight = none) : transportStep s = s := by
  simp [transportStep, hf]

/-! ### UPDATE and RESET -/

/-- Everything an UPDATE can do with a next state: it is held, it is rejected, or the registers are committed, encoded
and emitted (40_state_update.md rule R101). -/
theorem runUpdate_next {u : Update} {s t : State} (h : runUpdate u s = .next t) :
    (s.busy = true ∧ t = s) ∨
    (s.busy = false ∧ ∃ f n, firstInvalid u = some (f, n) ∧ t = raise (.outOfRange f n) s) ∨
    (s.busy = false ∧ firstInvalid u = none ∧ (s.dev.commit u).Valid ∧
      t = emitThen .update (encodeDevice (s.dev.commit u)) (setDevice (s.dev.commit u) (encodeDevice (s.dev.commit u)) s)) := by
  obtain ⟨hb, ht⟩ | ⟨hb, hk⟩ := whenIdle_next h
  · exact .inl ⟨hb, ht⟩
  · cases hi : firstInvalid u with
    | some p =>
      simp only [hi] at hk
      exact .inr (.inl ⟨hb, p.1, p.2, rfl, by simpa using hk.symm⟩)
    | none =>
      cases hl : (s.dev.commit u).badLevel with
      | some f => simp [hi, hl] at hk
      | none =>
        simp only [hi, hl] at hk
        exact .inr (.inr ⟨hb, rfl, (badLevel_eq_none_iff _).mp hl, by simpa using hk.symm⟩)

/-- Everything a RESET can do: it is held, or the block is reset (rule R100). -/
theorem runReset_cases (w0 w1 w2 : Word) (s : State) :
    (s.busy = true ∧ runReset w0 w1 w2 s = .next s) ∨
    (s.busy = false ∧ runReset w0 w1 w2 s = .next (resetBlock w0 w1 w2 s)) := by
  cases hb : s.busy with
  | true => exact .inl ⟨rfl, by simp [runReset, hb]⟩
  | false => exact .inr ⟨rfl, by simp [runReset, hb]⟩

/-! ### The queue of requests -/

@[simp] theorem pick_nil (busy : Bool) : pick busy [] = none := rfl

/-- An idle block accepts the oldest request. -/
@[simp] theorem pick_idle (r : Request) (rs : List Request) : pick false (r :: rs) = some (r, rs) := by
  simp [pick]

/-- What is accepted while busy is not held, and it is one of the requests. -/
theorem pick_busy_not_held : ∀ {rs rest : List Request} {r : Request},
    pick true rs = some (r, rest) → heldLine r.line = false ∧ r ∈ rs
  | [], _, _, h => by simp at h
  | x :: xs, rest, r, h => by
    cases hx : heldLine x.line with
    | false =>
      simp only [pick, hx, Bool.and_false, Bool.false_eq_true, if_false, Option.some.injEq, Prod.mk.injEq] at h
      exact ⟨h.1 ▸ hx, h.1 ▸ List.mem_cons_self⟩
    | true =>
      simp only [pick, hx, Bool.and_self, if_true] at h
      cases hp : pick true xs with
      | none => simp [hp] at h
      | some p =>
        obtain ⟨y, ys⟩ := p
        simp only [hp, Option.some.injEq, Prod.mk.injEq] at h
        obtain ⟨h1, h2⟩ := pick_busy_not_held hp
        exact ⟨h.1 ▸ h1, h.1 ▸ List.mem_cons_of_mem _ h2⟩

/-! ### The step -/

/-- Everything a step can do with a next state. -/
theorem step_next {s t : State} (h : step s = .next t) :
    (∃ r rest i, pick s.busy s.requests = some (r, rest) ∧ decode r = .ok i ∧ exec i (setRequests rest s) = .next t) ∨
    (pick s.busy s.requests = none ∧ t = if s.busy then transportStep s else s) := by
  unfold step at h
  cases hp : pick s.busy s.requests with
  | none => simp only [hp] at h; exact .inr ⟨rfl, by simpa using h.symm⟩
  | some p =>
    obtain ⟨r, rest⟩ := p
    simp only [hp] at h
    cases hd : decode r with
    | error e => simp [hd] at h
    | ok i => exact .inl ⟨r, rest, i, rfl, hd, by simpa [hd] using h⟩

end Sys2Proof.Machine
end

