-- ==== Sys2Proof/Laws/PerInstr.lean ====
section
/-! SUPPORT. Laws/PerInstr.lean: one lemma per constructor of Instr: the bits that present a well-formed operation fit the
line they are presented on. -/

namespace Sys2Proof.Laws

/-- The bits `encode` gives a well-formed operation fit its line. -/
def FitsItsLine.Statement (i : Instr) : Prop :=
  i.wf = true → (encode i).word < 2 ^ (encode i).line.width

/-- A command word of format U has 22 bits. -/
theorem onU_fits (u : Update) : (onU u).word < 2 ^ (onU u).line.width := (encodeUpdate u).isLt

/-- A response word of format RSP has eight bits. -/
theorem rsp_fits (r : BitVec 8) : r.toNat < 2 ^ Line.width .rsp := r.isLt

theorem FitsItsLine.update (u : Update) : FitsItsLine.Statement (.update u) := fun _ => onU_fits _

theorem FitsItsLine.setPilot (v : Bool) : FitsItsLine.Statement (.setPilot v) := fun _ => onU_fits _

theorem FitsItsLine.setLight (n : Int) : FitsItsLine.Statement (.setLight n) := fun _ => onU_fits _

theorem FitsItsLine.setThermostat (v : Bool) : FitsItsLine.Statement (.setThermostat v) := fun _ => onU_fits _

theorem FitsItsLine.setPower (v : Bool) : FitsItsLine.Statement (.setPower v) := fun _ => onU_fits _

theorem FitsItsLine.setFront (v : Bool) : FitsItsLine.Statement (.setFront v) := fun _ => onU_fits _

theorem FitsItsLine.setFan (n : Int) : FitsItsLine.Statement (.setFan n) := fun _ => onU_fits _

theorem FitsItsLine.setAux (v : Bool) : FitsItsLine.Statement (.setAux v) := fun _ => onU_fits _

theorem FitsItsLine.setFlame (n : Int) : FitsItsLine.Statement (.setFlame n) := fun _ => onU_fits _

theorem FitsItsLine.resend : FitsItsLine.Statement .resend := fun _ => onU_fits _

theorem FitsItsLine.reset (w0 w1 w2 : Word) : FitsItsLine.Statement (.reset w0 w1 w2) := fun _ => (w0 ++ w1 ++ w2).isLt

theorem FitsItsLine.get : FitsItsLine.Statement .get := fun _ => by decide

theorem FitsItsLine.rspOk : FitsItsLine.Statement .rspOk := fun _ => by decide

theorem FitsItsLine.rspOutOfRange (field : Field) (value : Int) : FitsItsLine.Statement (.rspOutOfRange field value) := fun _ => rsp_fits _

theorem FitsItsLine.rspTransportFailure : FitsItsLine.Statement .rspTransportFailure := fun _ => by decide

theorem FitsItsLine.ser (i : Fin 3) : FitsItsLine.Statement (.ser i) := fun _ => Nat.lt_succ_of_lt i.isLt

theorem FitsItsLine.cw1 : FitsItsLine.Statement .cw1 := fun _ => by decide

theorem FitsItsLine.cw2 : FitsItsLine.Statement .cw2 := fun _ => by decide

theorem FitsItsLine.ecc1High (hi lo : Nibble) : FitsItsLine.Statement (.ecc1High hi lo) := fun _ => (hi ++ lo).isLt

theorem FitsItsLine.ecc1Low (hi lo : Nibble) : FitsItsLine.Statement (.ecc1Low hi lo) := fun _ => (hi ++ lo).isLt

theorem FitsItsLine.ecc2High (hi lo : Nibble) : FitsItsLine.Statement (.ecc2High hi lo) := fun _ => (hi ++ lo).isLt

theorem FitsItsLine.ecc2Low (hi lo : Nibble) : FitsItsLine.Statement (.ecc2Low hi lo) := fun _ => (hi ++ lo).isLt

theorem FitsItsLine.ecc1 (w : Word) : FitsItsLine.Statement (.ecc1 w) := fun _ => w.isLt

theorem FitsItsLine.ecc2 (w : Word) : FitsItsLine.Statement (.ecc2 w) := fun _ => w.isLt

theorem FitsItsLine.assemble : FitsItsLine.Statement .assemble := fun _ => by decide

theorem FitsItsLine.parity (w : Word) : FitsItsLine.Statement (.parity w) := fun _ => w.isLt

theorem FitsItsLine.frame (w : Word) : FitsItsLine.Statement (.frame w) := fun _ => w.isLt

theorem FitsItsLine.tail : FitsItsLine.Statement .tail := fun _ => by decide

theorem FitsItsLine.symseq (p : Packet) : FitsItsLine.Statement (.symseq p) := fun _ => (p.ser0 ++ p.ser1 ++ p.ser2 ++ p.cmd1 ++ p.cmd2 ++ p.ecc1 ++ p.ecc2).isLt

theorem FitsItsLine.linecodeSync : FitsItsLine.Statement .linecodeSync := fun _ => by decide

theorem FitsItsLine.linecodeZero : FitsItsLine.Statement .linecodeZero := fun _ => by decide

theorem FitsItsLine.linecodeOne : FitsItsLine.Statement .linecodeOne := fun _ => by decide

theorem FitsItsLine.linecodePad : FitsItsLine.Statement .linecodePad := fun _ => by decide

theorem FitsItsLine.expand (q : List Symbol) : FitsItsLine.Statement (.expand q) := by
  intro h
  have hl : q.length = 100 := by simpa [Instr.wf] using h
  have := bitsToNat_lt (symbolsToBits q)
  simpa [Sys2Proof.encode, Line.width, hl] using this

theorem FitsItsLine.pack (b : Bits) : FitsItsLine.Statement (.pack b) := by
  intro h
  have hl : b.length = 200 := by simpa [Instr.wf] using h
  have := bitsToNat_lt b
  simpa [Sys2Proof.encode, Line.width, hl] using this

theorem FitsItsLine.encode : FitsItsLine.Statement .encode := fun _ => by decide

theorem FitsItsLine.configure : FitsItsLine.Statement .configure := fun _ => by decide

theorem FitsItsLine.emit (b : Bits) : FitsItsLine.Statement (.emit b) := by
  intro h
  have hl : b.length = 200 := by simpa [Instr.wf] using h
  have := bitsToNat_lt b
  simpa [Sys2Proof.encode, Line.width, hl] using this

end Sys2Proof.Laws
end

