-- ==== Sys2Proof/Tests/Slice0.lean ====
section
/-! SUPPORT. Tests/Slice0.lean: the well-formedness smoke tests, the decoding of every constructor from a word written out
from the spec's formats, a few vectors of 95_test_vectors.md, and for each obligation with hypotheses a witness that they
are met together. Expected values are the spec's (the vector or rule each comment names), never the model's own answers. -/

namespace Sys2Proof.Tests

open Sys2Proof Sys2Proof.Machine

/-! ### Helpers -/

/-- The machine after reset with the transport's answers `as` at hand. -/
def answered (as : List Answer) : State := { State.reset with answers := as }

/-- An UPDATE's transmission in progress at this position of this repetition. -/
def flying (pos rep : Nat) : State :=
  { State.reset with
    last := some (encodeDevice State.reset.dev), busy := true, pos := pos
    flight := some ⟨encodeDevice State.reset.dev, rep, .update⟩ }

/-- The machine after reset with other registers. -/
def holding (d : Device) : State := { State.reset with dev := d }

/-- The registers of vector V3 (the scenario of section 8 of the source). -/
def devV3 : Device := { State.reset.dev with
  pilot := false, light := 5, thermostat := true, front := true, fan := 6, flame := 2 }

/-- The registers of vector V5: everything at its maximum. -/
def devV5 : Device := ⟨true, 6, true, true, true, 6, true, 6, 0b111111111, 0b111111111, 0b111111111⟩

/-- The registers of vector V4: everything zero. -/
def devV4 : Device := ⟨false, 0, false, false, false, 0, false, 0, 0, 0, 0⟩

/-- The next state of an outcome. -/
def nextOf (o : Result) : Option State :=
  match o with
  | .next s => some s
  | .fault _ => none
  | .refused _ => none

/-- The value an operation returns. -/
def valueOf (o : Result) : Option Value := (nextOf o).map State.result

/-- The value of a decode, if there is one. -/
def decoded (l : Line) (w : Nat) : Option Instr :=
  match decode ⟨l, w⟩ with
  | .ok i => some i
  | .error _ => none

/-- The error of a decode, if there is one. -/
def rejected (l : Line) (w : Nat) : Option DecodeError :=
  match decode ⟨l, w⟩ with
  | .ok _ => none
  | .error e => some e

/-! ### WellFormed: one ill-formed term for each check -/

theorem test_wf_update_light : Instr.wf (.update { light := some 8, power := some true }) = false := by decide
theorem test_wf_update_fan : Instr.wf (.update { fan := some (-1), power := some true }) = false := by decide
theorem test_wf_update_flame : Instr.wf (.update { flame := some 100, power := some true }) = false := by decide
theorem test_wf_update_one_field : Instr.wf (.update { power := some true }) = false := by decide
theorem test_wf_update_no_field : Instr.wf (.update {}) = false := by decide
theorem test_wf_set_light : Instr.wf (.setLight 8) = false := by decide
theorem test_wf_set_fan : Instr.wf (.setFan (-1)) = false := by decide
theorem test_wf_set_flame : Instr.wf (.setFlame 8) = false := by decide
theorem test_wf_rsp_out_of_range : Instr.wf (.rspOutOfRange .light 8) = false := by decide
theorem test_wf_expand_length : Instr.wf (.expand (List.replicate 99 .pad)) = false := by decide
theorem test_wf_pack_length : Instr.wf (.pack (List.replicate 199 false)) = false := by decide +kernel
theorem test_wf_emit_length : Instr.wf (.emit (List.replicate 201 false)) = false := by decide +kernel
theorem test_wf_accepts_seven : Instr.wf (.update { light := some 7, fan := some 7 }) = true := by decide

/-! ### Decoding every constructor -/

/-- Command words of the tables X1 to X13 and P1 to P3 (select bits, then data bits). -/
theorem test_decode_update_forms :
    decoded .u 0b1110110101011011100010 =
      some (.update { pilot := some false, light := some 5, thermostat := some true, front := some true, fan := some 6,
                      flame := some 2 }) ∧
    decoded .u 0b0100010001110001110000 = some (.update { light := some 7, fan := some 7 }) ∧
    decoded .u 0b1111111111101111101110 =
      some (.update ⟨some true, some 6, some true, some true, some true, some 6, some true, some 6⟩) := by decide
theorem test_decode_set_pilot : decoded .u 0b1000000010000000000000 = some (.setPilot true) := by decide
theorem test_decode_set_light : decoded .u 0b0100000001100000000000 = some (.setLight 6) := by decide
theorem test_decode_set_thermostat : decoded .u 0b0010000000001000000000 = some (.setThermostat true) := by decide
theorem test_decode_set_power : decoded .u 0b0001000000000100000000 = some (.setPower true) := by decide
theorem test_decode_set_front : decoded .u 0b0000100000000010000000 = some (.setFront true) := by decide
theorem test_decode_set_fan : decoded .u 0b0000010000000001100000 = some (.setFan 6) := by decide
theorem test_decode_set_aux : decoded .u 0b0000001000000000001000 = some (.setAux true) := by decide
theorem test_decode_set_flame : decoded .u 0b0000000100000000000100 = some (.setFlame 4) := by decide
theorem test_decode_resend : decoded .u 0 = some .resend := by decide
/-- X9: the data bits of unselected fields are all 1 and are ignored. -/
theorem test_decode_unselected_ignored : decoded .u 0b0001000001110101110111 = some (.setPower true) := by decide
theorem test_decode_reset :
    decoded .rst 0b001001011011110100000000100 = some (.reset 0b001001011 0b011110100 0b000000100) := by decide
theorem test_decode_get : decoded .snap 0 = some .get := by decide
theorem test_decode_responses :
    decoded .rsp 0b00000000 = some .rspOk ∧ decoded .rsp 0b01001111 = some (.rspOutOfRange .light 7) ∧
    decoded .rsp 0b01101111 = some (.rspOutOfRange .fan 7) ∧ decoded .rsp 0b01111111 = some (.rspOutOfRange .flame 7) ∧
    decoded .rsp 0b10000000 = some .rspTransportFailure := by decide
theorem test_decode_ser :
    decoded .ser 0 = some (.ser 0) ∧ decoded .ser 1 = some (.ser 1) ∧ decoded .ser 2 = some (.ser 2) := by decide
theorem test_decode_no_operand :
    decoded .cw1 0 = some .cw1 ∧ decoded .cw2 0 = some .cw2 ∧ decoded .assemble 0 = some .assemble ∧
    decoded .tail 0 = some .tail ∧ decoded .encode 0 = some .encode ∧ decoded .configure 0 = some .configure := by decide
theorem test_decode_nibbles :
    decoded .ecc1High 0b10000001 = some (.ecc1High 8 1) ∧ decoded .ecc1Low 0b10000001 = some (.ecc1Low 8 1) ∧
    decoded .ecc2High 0b11100010 = some (.ecc2High 0xE 2) ∧
    decoded .ecc2Low 0b11100010 = some (.ecc2Low 0xE 2) := by decide
theorem test_decode_words :
    decoded .ecc1 0b100000010 = some (.ecc1 0b100000010) ∧ decoded .ecc2 0b111000100 = some (.ecc2 0b111000100) ∧
    decoded .parity 0b001001011 = some (.parity 0b001001011) ∧
    decoded .frame 0b001001011 = some (.frame 0b001001011) := by decide
theorem test_decode_symseq :
    decoded .symseq 0b001001011011110100000000100100000000000000000010110000000001110 =
      some (.symseq ⟨0b001001011, 0b011110100, 0b000000100, 0b100000000, 0b000000000, 0b010110000, 0b000001110⟩) := by
  decide
theorem test_decode_linecode :
    decoded .lc 0b11 = some .linecodeSync ∧ decoded .lc 0b01 = some .linecodeZero ∧
    decoded .lc 0b10 = some .linecodeOne ∧ decoded .lc 0b00 = some .linecodePad := by decide
/-- The first symbol is in the two highest bits: SYNC, then PAD throughout. -/
theorem test_decode_expand :
    decoded .expand (3 * 2 ^ 198) = some (.expand (.sync :: List.replicate 99 .pad)) := by decide +kernel
/-- The first bit is the highest. -/
theorem test_decode_pack_and_emit :
    decoded .pack (2 ^ 199) = some (.pack (true :: List.replicate 199 false)) ∧
    decoded .emit (2 ^ 199) = some (.emit (true :: List.replicate 199 false)) := by decide +kernel

/-- What is presented wrongly is rejected by name. -/
theorem test_decode_rejects :
    rejected .u (2 ^ 22) = some (.tooWide .u) ∧ rejected .rst (2 ^ 27) = some (.tooWide .rst) ∧
    rejected .rsp 0b11000000 = some .statusNeverProduced ∧ rejected .rsp 0b00001000 = some .errorFieldsNotZero ∧
    rejected .rsp 0b10000001 = some .errorFieldsNotZero ∧ rejected .ser 3 = some .noSuchSerialWord ∧
    rejected .noLine 0 = some .noRow := by decide

/-! ### Words of the opcode table -/

theorem test_table_words :
    decodeTableWord 24 0x054137 = some (.update { power := some true, fan := some 3, flame := some 7 }) ∧
    decodeTableWord 32 0b001001011011110100000000100 = some (.reset 0b001001011 0b011110100 0b000000100) ∧
    decodeTableWord 48 0 = some .get ∧ decodeTableWord 8 0x4F = some (.rspOutOfRange .light 7) ∧
    decodeTableWord 8 0x80 = some .rspTransportFailure ∧ decodeTableWord 16 0b010100100 = some .cw1 ∧
    decodeTableWord 16 0b111011100 = some .cw2 ∧ decodeTableWord 16 0b001001011 = some (.ser 0) ∧
    decodeTableWord 64 0b001001011011110100000000100100000000000000000010110000000001110 = some .assemble := by decide
theorem test_table_word_pack :
    decodeTableWord 200 (2 ^ 199) = some (.pack (true :: List.replicate 199 false)) := by decide +kernel
/-- The word presented is the one the next step runs. -/
theorem test_table_word_runs :
    nextOf (step (State.reset.withFetchWord 24 0x101C00)) = nextOf (exec (.setLight 7) State.reset) ∧
    nextOf (step (State.reset.withFetchWord 48 0)) = nextOf (exec .get State.reset) := by decide

/-! ### Host operations: the vectors X1 to X13 -/

/-- X2: SET_LIGHT 6, transport done. -/
theorem test_set_light :
    (nextOf (exec (.setLight 6) (answered [.done]))).map (fun t => (t.dev.light, t.obs.getLast?)) =
      some (6, some (.response .ok)) := by decide +kernel
/-- X3: SET_LIGHT 7: the error response, nothing written, nothing emitted, `LAST` still none. -/
theorem test_set_light_seven :
    (nextOf (exec (.setLight 7) (answered [.done]))).map (fun t => (t.dev, t.last, t.obs)) =
      some (State.reset.dev, none, [.response (.error (.outOfRange .light 7))]) := by decide +kernel
/-- X4. -/
theorem test_set_fan_seven :
    (nextOf (exec (.setFan 7) (answered [.done]))).map State.obs =
      some [.response (.error (.outOfRange .fan 7))] := by decide +kernel
/-- X5. -/
theorem test_set_flame_seven :
    (nextOf (exec (.setFlame 7) (answered [.done]))).map State.obs =
      some [.response (.error (.outOfRange .flame 7))] := by decide +kernel
/-- X6: of several invalid levels light is named first. -/
theorem test_update_first_invalid :
    (nextOf (exec (.update { light := some 7, fan := some 7 }) (answered [.done]))).map State.obs =
      some [.response (.error (.outOfRange .light 7))] := by decide +kernel
/-- X8: the valid fields of a rejected batch are not written. -/
theorem test_update_rejected_whole :
    (nextOf (exec (.update { power := some true, fan := some 3, flame := some 7 }) (answered [.done]))).map State.dev =
      some State.reset.dev := by decide +kernel
/-- X1: RESEND from reset emits V1. -/
theorem test_resend :
    (nextOf (exec .resend (answered [.done]))).map (fun t => (t.last.map pack)) =
      some (some [0xe5, 0x96, 0x69, 0xb9, 0xaa, 0x65, 0xae, 0x55, 0x59, 0x6b, 0xa5, 0x55, 0x5a, 0xe5, 0x55, 0x55, 0xb9,
        0x9a, 0x55, 0xae, 0x55, 0x6a, 0x68, 0x00, 0x00]) := by decide +kernel
/-- X11: SET_POWER with the transport answering failed: the register and the emit stay, the response is the error. -/
theorem test_set_power_failed :
    (nextOf (exec (.setPower true) (answered [.failed]))).map (fun t => (t.dev.power, (emitsOf t.obs).map pack,
        t.obs.getLast?)) =
      some (true, [[0xe5, 0x96, 0x69, 0xb9, 0xaa, 0x65, 0xae, 0x55, 0x59, 0x6b, 0xa5, 0x55, 0x96, 0xe5, 0x55, 0x55, 0xb9,
        0xaa, 0x59, 0xae, 0x55, 0x6a, 0x68, 0x00, 0x00]], some (.response (.error .transportFailure))) := by
  decide +kernel
/-- X10: a value the register already has is emitted all the same. -/
theorem test_set_pilot_same_value :
    (nextOf (exec (.setPilot true) (answered [.done]))).map (fun t => (t.dev, (emitsOf t.obs).length)) =
      some (State.reset.dev, 1) := by decide +kernel
theorem test_set_other_fields :
    (nextOf (exec (.setThermostat true) (answered [.done]))).map (fun t => t.dev.thermostat) = some true ∧
    (nextOf (exec (.setFront true) (answered [.done]))).map (fun t => t.dev.front) = some true ∧
    (nextOf (exec (.setAux true) (answered [.done]))).map (fun t => t.dev.aux) = some true ∧
    (nextOf (exec (.setFan 3) (answered [.done]))).map (fun t => t.dev.fan) = some 3 ∧
    (nextOf (exec (.setFlame 4) (answered [.done]))).map (fun t => t.dev.flame) = some 4 := by decide +kernel
/-- RESET writes the serial words and emits nothing (rules R100 and R252). -/
theorem test_reset :
    (nextOf (exec (.reset 0b111111111 0 1) (holding devV3))).map (fun t => (t.dev, t.obs)) =
      some (⟨true, 0, false, false, false, 0, false, 0, 0b111111111, 0, 1⟩, []) := by decide
theorem test_get : (nextOf (exec .get (holding devV3))).map State.obs = some [.snapshot devV3] := by decide
/-- The response words of X1, X4 and X11; values outside three bits have none. -/
theorem test_response_words :
    Response.word .ok = some 0b00000000 ∧ Response.word (.error (.outOfRange .fan 7)) = some 0b01101111 ∧
    Response.word (.error .transportFailure) = some 0b10000000 ∧
    Response.word (.error (.outOfRange .fan 8)) = none := by decide
theorem test_responses :
    (nextOf (exec .rspOk State.reset)).map State.obs = some [.response .ok] ∧
    (nextOf (exec (.rspOutOfRange .flame 7) State.reset)).map State.obs =
      some [.response (.error (.outOfRange .flame 7))] ∧
    (nextOf (exec .rspTransportFailure State.reset)).map State.obs = some [.response (.error .transportFailure)] := by
  decide

/-! ### The codec: V1, V3, V4, V5 -/

theorem test_ser :
    valueOf (exec (.ser 0) State.reset) = some (.word 0b001001011) ∧
    valueOf (exec (.ser 1) State.reset) = some (.word 0b011110100) ∧
    valueOf (exec (.ser 2) State.reset) = some (.word 0b000000100) := by decide
/-- V3. -/
theorem test_command_words :
    valueOf (exec .cw1 (holding devV3)) = some (.word 0b010100100) ∧
    valueOf (exec .cw2 (holding devV3)) = some (.word 0b111000100) := by decide
/-- V3: `hi1 = 5`, `lo1 = 2`, `hi2 = E`, `lo2 = 2`. -/
theorem test_ecc_nibbles :
    valueOf (exec (.ecc1High 5 2) State.reset) = some (.nibble 6) ∧
    valueOf (exec (.ecc1Low 5 2) State.reset) = some (.nibble 7) ∧
    valueOf (exec (.ecc2High 0xE 2) State.reset) = some (.nibble 6) ∧
    valueOf (exec (.ecc2Low 0xE 2) State.reset) = some (.nibble 0xB) := by decide
/-- V5: the top bits of both nibbles are set and dropped by `shl4`. -/
theorem test_ecc_words :
    valueOf (exec (.ecc1 0b111000110) State.reset) = some (.word 0b100111010) ∧
    valueOf (exec (.ecc2 0b111011100) State.reset) = some (.word 0b111001110) := by decide
/-- V4: the two constants by themselves. -/
theorem test_assemble_zero :
    valueOf (exec .assemble (holding devV4)) = some (.packet ⟨0, 0, 0, 0, 0, 0b110100000, 0b000001110⟩) := by decide
/-- V5. -/
theorem test_assemble_maximum :
    valueOf (exec .assemble (holding devV5)) = some (.packet
      ⟨0b111111111, 0b111111111, 0b111111111, 0b111000110, 0b111011100, 0b100111010, 0b111001110⟩) := by decide
/-- E1. -/
theorem test_parity :
    valueOf (exec (.parity 0b001001011) State.reset) = some (.bit false) ∧
    valueOf (exec (.parity 0b011110100) State.reset) = some (.bit true) := by decide
/-- E1: `S101111010011`. -/
theorem test_frame :
    valueOf (exec (.frame 0b011110100) State.reset) = some (.symbols
      [.sync, .one, .zero, .one, .one, .one, .one, .zero, .one, .zero, .zero, .one, .one]) := by decide
theorem test_tail : valueOf (exec .tail State.reset) = some (.symbols (List.replicate 9 .pad)) := by decide
/-- V10: symbol 52 is the SYNC of frame 4, symbol 91 the first PAD. -/
theorem test_symseq :
    (symseq (assemble devV3))[52]? = some .sync ∧ (symseq (assemble devV3))[53]? = some .one ∧
    (symseq (assemble devV3))[90]? = some .one ∧ (symseq (assemble devV3))[91]? = some .pad ∧
    (symseq (assemble devV3))[100]? = none := by decide
theorem test_linecode :
    valueOf (exec .linecodeSync State.reset) = some (.bits [true, true]) ∧
    valueOf (exec .linecodeZero State.reset) = some (.bits [false, true]) ∧
    valueOf (exec .linecodeOne State.reset) = some (.bits [true, false]) ∧
    valueOf (exec .linecodePad State.reset) = some (.bits [false, false]) := by decide
theorem test_expand :
    valueOf (exec (.expand [.sync, .one, .zero, .pad]) State.reset) =
      some (.bits [true, true, true, false, false, true, false, false]) := by decide
/-- The first bit of a byte is its highest. -/
theorem test_pack :
    valueOf (exec (.pack [true, true, true, false, false, true, false, true]) State.reset) = some (.bytes [0xe5]) := by
  decide
/-- V5. -/
theorem test_encode_maximum :
    pack (encodeDevice devV5) = [0xea, 0xaa, 0xaa, 0xba, 0xaa, 0xaa, 0xae, 0xaa, 0xaa, 0xab, 0xaa, 0x56, 0x9a, 0xea, 0x9a,
      0x95, 0xba, 0x5a, 0x99, 0xae, 0xa9, 0x6a, 0x58, 0x00, 0x00] := by decide +kernel
/-- V3. -/
theorem test_encode_scenario :
    (nextOf (exec .encode (holding devV3))).map (fun t => match t.result with | .bits b => pack b | _ => []) =
      some [0xe5, 0x96, 0x69, 0xb9, 0xaa, 0x65, 0xae, 0x55, 0x59, 0x6b, 0x99, 0x96, 0x5a, 0xea, 0x95, 0x95, 0xb9, 0xa5,
        0xa9, 0xae, 0x69, 0x9a, 0x68, 0x00, 0x00] := by decide +kernel

/-! ### The transport -/

/-- The three constants of rule R37. -/
theorem test_configure :
    (nextOf (exec .configure State.reset)).map State.configured = some (some ⟨314973000, .askOok, 2400⟩) := by decide
/-- Rule R202: handed over with repeat count 4, the answer returned. -/
theorem test_emit_done :
    (nextOf (exec (.emit [true, false]) (answered [.done]))).map (fun t => (t.obs, t.result, t.busy)) =
      some ([.emit [true, false] 4], .answer .done, false) := by decide
theorem test_emit_failed :
    (nextOf (exec (.emit [true, false]) (answered [.failed]))).map State.obs =
      some [.emit [true, false] 4, .response (.error .transportFailure)] := by decide
/-- Rule R36: without an answer the first bit is the next to leave; the last one leaves at 199; then nothing is left. -/
theorem test_positions :
    nextBit (flying 0 0) = some true ∧ nextBit (flying 199 4) = some false ∧ nextBit (flying 200 4) = none ∧
    (transportStep (flying 199 4)).pos = 200 ∧ (transportStep (flying 200 4)).pos = 200 ∧
    (transportStep (flying 200 3)).pos = 0 := by decide +kernel
/-- Rule R206: done is not taken before the five repetitions have left, and ends them then. -/
theorem test_done_taken_at_the_end :
    (transportStep ((flying 199 4).hear .done)).busy = true ∧ (transportStep ((flying 200 3).hear .done)).busy = true ∧
    (transportStep ((flying 200 4).hear .done)).busy = false ∧
    (transportStep ((flying 200 4).hear .done)).obs = [.response .ok] ∧
    (transportStep ((flying 0 0).hear .failed)).obs = [.response (.error .transportFailure)] := by decide +kernel

/-! ### Witnesses: each obligation's hypotheses are met together -/

theorem witness_EncodeDecodeRoundTrip :
    Instr.wf (.update { light := some 0, fan := some 7 }) = true ∧ Instr.wf (.setFlame 7) = true ∧
    Instr.wf (.rspOutOfRange .flame 7) = true ∧ Instr.wf (.ser 2) = true ∧
    Instr.wf (.expand (List.replicate 100 .sync)) = true ∧ Instr.wf (.pack (List.replicate 200 true)) = true := by decide +kernel
theorem witness_DecodeYieldsWellFormed :
    decode ⟨.u, 2 ^ 22 - 1⟩ =
      .ok (.update ⟨some true, some 7, some true, some true, some true, some 7, some true, some 7⟩) := by decide
/-- Two different words, one with every unselected data bit 0 and one with every unselected data bit 1. -/
theorem witness_UnselectedDataBitsIgnored :
    let u : BitVec 22 := 0b0100000001100000000000
    let v : BitVec 22 := 0b0100000011101111111111
    u ≠ v ∧ u.extractLsb' 14 8 = v.extractLsb' 14 8 ∧
    (u.getLsbD 21 = true → u.getLsbD 13 = v.getLsbD 13) ∧
    (u.getLsbD 20 = true → u.extractLsb' 10 3 = v.extractLsb' 10 3) ∧
    (u.getLsbD 19 = true → u.getLsbD 9 = v.getLsbD 9) ∧ (u.getLsbD 18 = true → u.getLsbD 8 = v.getLsbD 8) ∧
    (u.getLsbD 17 = true → u.getLsbD 7 = v.getLsbD 7) ∧
    (u.getLsbD 16 = true → u.extractLsb' 4 3 = v.extractLsb' 4 3) ∧
    (u.getLsbD 15 = true → u.getLsbD 3 = v.getLsbD 3) ∧
    (u.getLsbD 14 = true → u.extractLsb' 0 3 = v.extractLsb' 0 3) := by decide
theorem witness_StepRunsTheAcceptedOperation_busy :
    pick true [⟨.u, 0⟩, ⟨.snap, 0⟩] = some (⟨.snap, 0⟩, [⟨.u, 0⟩]) ∧ decode ⟨.snap, 0⟩ = .ok .get := by decide
theorem witness_StepRunsTheAcceptedOperation_idle :
    (State.reset.present ⟨.u, 0⟩).busy = false ∧ (State.reset.present ⟨.u, 0⟩).requests = ⟨.u, 0⟩ :: [] ∧
    decode ⟨.u, 0⟩ = .ok .resend := by decide
theorem witness_StepRunsTheAcceptedOperation_nothing :
    State.reset.busy = false ∧ State.reset.requests = [] := by decide
theorem witness_BusyHoldsOperations :
    (flying 0 0).busy = true ∧ heldInstr .resend = true ∧ heldInstr (.reset 0 0 0) = true ∧
    ((flying 199 4).present ⟨.rst, 0⟩).busy = true ∧
    (∀ r ∈ ((flying 199 4).present ⟨.rst, 0⟩).requests, heldLine r.line = true) := by decide
theorem witness_GetAnsweredWhileBusy :
    (((flying 0 0).present ⟨.u, 0⟩).present ⟨.snap, 0⟩).busy = true ∧
    (∀ r ∈ [(⟨.u, 0⟩ : Request)], heldLine r.line = true) ∧
    (((flying 0 0).present ⟨.u, 0⟩).present ⟨.snap, 0⟩).requests = [⟨.u, 0⟩] ++ ⟨.snap, 0⟩ :: [] := by decide
/-- Idle, at the first bit, and at the end of the last repetition. -/
theorem witness_StepKeepsInvariant :
    Inv State.reset ∧ Inv (flying 0 0) ∧ Inv (flying 200 4) ∧ (nextOf (step State.reset)).isSome = true ∧
    (nextOf (step (flying 0 0))).isSome = true ∧ (nextOf (step (flying 200 4))).isSome = true := by decide +kernel
theorem witness_RunsNeverStop :
    Inv ((flying 200 4).present ⟨.u, 0x101C00⟩) ∧
    (∀ r ∈ ((flying 200 4).present ⟨.u, 0x101C00⟩).requests, ∃ i, decode r = .ok i) :=
  ⟨by decide +kernel, fun r hr => ⟨.setLight 7, by rw [List.mem_singleton.mp hr]; decide⟩⟩
theorem witness_SerialWrittenOnlyByReset :
    (∀ w0 w1 w2, Instr.setPower true ≠ .reset w0 w1 w2) ∧
    (nextOf (exec (.setPower true) (answered [.done]))).isSome = true ∧ State.reset.busy = false :=
  ⟨fun _ _ _ h => Instr.noConfusion h, by decide +kernel⟩
theorem witness_RegistersWrittenOnlyByUpdateAndReset :
    (encode .get).line ≠ .u ∧ (encode .get).line ≠ .rst ∧ (nextOf (exec .get State.reset)).isSome = true := by decide
theorem witness_EmitsComeFromUpdateAndEmit :
    (encode .get).line ≠ .u ∧ (encode .get).line ≠ .emit ∧ (nextOf (exec .get State.reset)).isSome = true ∧
    (encode .resend).line = .u ∧ (nextOf (exec .resend State.reset)).isSome = true := by decide +kernel
/-- Every field selected with its levels at 0 and at 6, and no field selected. -/
theorem witness_CommitWritesTheSelectedRegisters :
    (⟨some true, some 0, some true, some true, some true, some 6, some true, some 0⟩ : Update).light = some 0 ∧
    (⟨some true, some 0, some true, some true, some true, some 6, some true, some 0⟩ : Update).fan = some 6 ∧
    (0 : Int) ≤ 0 ∧ (6 : Int) ≤ 6 ∧ ({} : Update).light = none ∧ ({} : Update).pilot = none ∧ devV5.Valid ∧
    InRange (some 0) ∧ InRange (some 6) := by decide
theorem witness_UpdateCommitsEncodesAndEmits :
    Idle (answered [.done]) ∧ InRange (some 0) ∧ InRange (some 6) ∧ InRange none ∧
    ((answered [.done]).dev.commit { light := some 0, fan := some 6 }).Valid ∧ (answered [.done]).answers = .done :: [] ∧
    Idle (answered [.failed]) ∧ ((answered [.failed]).dev.commit { light := some 0, fan := some 6 }).Valid ∧
    (answered [.failed]).answers = .failed :: [] := by decide
theorem witness_UnansweredUpdateIsInFlight :
    Idle State.reset ∧ InRange (some 6) ∧ InRange none ∧ (State.reset.dev.commit { light := some 6 }).Valid ∧
    State.reset.answers = [] := by decide
/-- The values next to the valid range, in each of the three fields. -/
theorem witness_UpdateWithInvalidLevelIsRejectedWhole :
    Idle State.reset ∧ ¬ ((0 : Int) ≤ -1 ∧ (-1 : Int) ≤ 6) ∧ ¬ ((0 : Int) ≤ 7 ∧ (7 : Int) ≤ 6) ∧
    ({ light := some 7 } : Update).light = some 7 ∧
    InRange ({ light := some 6, fan := some (-1) } : Update).light ∧
    ({ light := some 6, fan := some (-1) } : Update).fan = some (-1) ∧
    InRange ({ flame := some 7 } : Update).light ∧ InRange ({ flame := some 7 } : Update).fan ∧
    ({ flame := some 7 } : Update).flame = some 7 := by decide
/-- X7. -/
theorem witness_InterfaceRejectsOnlySeven :
    State.reset.busy = false ∧
    (nextOf (exec (.update (decodeUpdate 0x014077)) State.reset)).map State.obs =
      some (State.reset.obs ++ [.response (.error (.outOfRange .fan 7))]) := by decide
theorem witness_BooleanFormsAndResendTransmit :
    Idle (answered [.failed, .done]) ∧ (answered [.failed, .done]).dev.Valid ∧
    (answered [.failed, .done]).answers = .failed :: [.done] := by decide
theorem witness_LevelFormsTransmitOrReject :
    Idle (answered [.done]) ∧ (answered [.done]).dev.Valid ∧ (answered [.done]).answers = .done :: [] ∧
    (0 : Level).toNat ≤ 6 ∧ (6 : Level).toNat ≤ 6 ∧ ((-1 : Int) < 0 ∨ 6 < (-1 : Int)) ∧
    ((7 : Int) < 0 ∨ 6 < (7 : Int)) := by decide
theorem witness_ResetSetsEveryRegisterAndEmitsNothing :
    (holding devV5).busy = false ∧ (flying 0 0).busy = true := by decide
theorem witness_ResponsesReachTheHost : Idle State.reset := by decide
theorem witness_ResponseWordFormat : (Response.ok).word = some 0 := by decide
theorem witness_CommandWordsOfTheRegisters :
    devV5.light.toNat ≤ 6 ∧ devV5.fan.toNat ≤ 6 ∧ devV5.flame.toNat ≤ 6 ∧ devV4.light.toNat ≤ 6 := by decide
theorem witness_LevelSevenIsNotEncoded :
    (holding { devV4 with light := 7 }).dev.light = 7 ∧ (holding { devV4 with fan := 7 }).dev.fan = 7 ∧
    (holding { devV4 with fan := 6, flame := 7 }).dev.fan.toNat ≤ 6 ∧
    (holding { devV4 with fan := 6, flame := 7 }).dev.flame = 7 ∧ ¬ (holding { devV4 with light := 7 }).dev.Valid ∧
    (holding { devV4 with light := 7 }).busy = false ∧ InRange (some 6) ∧ InRange none ∧
    ¬ ((holding { devV4 with light := 7 }).dev.commit { fan := some 6 }).Valid := by decide
theorem witness_AssembleReturnsTheSevenWords : (holding devV5).dev.Valid ∧ (holding devV4).dev.Valid := by decide
/-- The same registers, and registers that agree in just the fields of one clause. -/
theorem witness_PacketWordsAreIndependent :
    let e : Device := { devV3 with front := false, flame := 0, serial1 := 0 }
    let f : Device := { devV3 with pilot := true, light := 0, serial1 := 0 }
    let g : Device := { devV5 with serial0 := devV3.serial0, serial1 := devV3.serial1, serial2 := devV3.serial2 }
    assemble devV3 = assemble devV3 ∧
    (devV3 ≠ e ∧ devV3.pilot = e.pilot ∧ devV3.light = e.light ∧ devV3.thermostat = e.thermostat ∧
      devV3.power = e.power) ∧
    (devV3 ≠ f ∧ devV3.front = f.front ∧ devV3.fan = f.fan ∧ devV3.aux = f.aux ∧ devV3.flame = f.flame) ∧
    (devV3 ≠ g ∧ devV3.serial0 = g.serial0 ∧ devV3.serial1 = g.serial1 ∧ devV3.serial2 = g.serial2) := by decide
theorem witness_FlippedBits : (1 : Nat) ≤ 1 ∧ (8 : Nat) ≤ 8 ∧ (0 : Nat) ≤ 8 := by decide
/-- The first and the last word, content bit, and tail symbol. -/
theorem witness_SymbolPositions :
    (packetWords (assemble devV3))[0]? = some 0b001001011 ∧ (packetWords (assemble devV3))[6]? = some 0b011010110 ∧
    (0 : Nat) ≤ 8 ∧ (8 : Nat) ≤ 8 := by decide
theorem witness_ExpansionIsUndoneByPairs :
    [Symbol.sync, .pad][0]? = some .sync ∧ [Symbol.sync, .pad][1]? = some .pad := by decide
/-- Registers that differ in control fields alone, and in serial words alone; positions at both ends of each range. -/
theorem witness_EncodedSequenceInvariants :
    let g : Device := { devV5 with serial0 := devV3.serial0, serial1 := devV3.serial1, serial2 := devV3.serial2 }
    devV3.serial0 = g.serial0 ∧ devV3.serial1 = g.serial1 ∧ devV3.serial2 = g.serial2 ∧ devV3 ≠ g ∧
    ({ devV5 with serial0 := 0, serial1 := 0, serial2 := 0 } : Device) =
      { g with serial0 := 0, serial1 := 0, serial2 := 0 } ∧ devV5 ≠ g ∧
    (encodeDevice devV3)[2 * 78]? = some true ∧ (encodeDevice devV3)[2 * 78 + 1]? = some true ∧
    (1 < 91 ∧ 1 % 13 ≠ 0) ∧ (90 < 91 ∧ 90 % 13 ≠ 0) := by decide +kernel
theorem witness_EncodeReturnsTheComposition : (holding devV3).dev.Valid := by decide
theorem witness_EncodeIsInjective : encodeDevice devV3 = encodeDevice { devV3 with aux := false } := by decide +kernel
theorem witness_PackPutsTheFirstBitHighest :
    (encodeDevice devV3).length = 200 ∧ (0 < 25 ∧ 0 < 8) ∧ (24 < 25 ∧ 7 < 8) := by decide +kernel
theorem witness_ConfigureHandsOverTheConstants :
    State.reset.busy = false ∧
    ({ State.reset with configured := some ⟨314973000, .askOok, 2400⟩ } : State).busy = false ∧
    ({ State.reset with configured := some ⟨314973000, .askOok, 2400⟩ } : State).configured =
      some ⟨314973000, .askOok, 2400⟩ := by decide
theorem witness_EmitHandsOverOneCopy :
    Idle (answered [.done]) ∧ (answered [.done]).answers = .done :: [] ∧ Idle (answered [.failed]) ∧
    (answered [.failed]).answers = .failed :: [] ∧ Idle (answered []) ∧ (answered []).answers = [] := by decide
theorem witness_AirCarriesFiveCopies :
    (encodeDevice devV3).length = 200 ∧ (0 < 5 ∧ 0 < 200) ∧ (4 < 5 ∧ 199 < 200) := by decide +kernel
/-- The first bit of the first repetition and the last bit of the last. -/
theorem witness_PositionWalksTheSequence :
    (flying 0 0).flight = some ⟨encodeDevice State.reset.dev, 0, .update⟩ ∧
    (flying 199 4).flight = some ⟨encodeDevice State.reset.dev, 4, .update⟩ ∧
    (encodeDevice State.reset.dev).length = 200 ∧ (0 ≤ 4 ∧ 4 ≤ 4) ∧ (flying 199 4).answers = [] ∧
    (flying 0 0).pos < 200 ∧ (flying 199 4).pos < 200 := by decide +kernel
theorem witness_TransmissionRefinesTheAtomicUpdate :
    Idle State.reset ∧ InRange (some 0) ∧ InRange (some 6) ∧ InRange none ∧ State.reset.answers = [] ∧
    State.reset.requests = [] ∧
    (nextOf (exec (.update { light := some 0, flame := some 6 }) State.reset)).isSome = true := by decide +kernel

end Sys2Proof.Tests
end

namespace Sys2Proof.Machine

/-! Proofs about the operations and the registers: what an operation with a next state has done (`Effect`), said once
for all 38 operations, and what that leaves of the registers. -/

/-! ### What an operation with a next state has done -/

/-- The ways operation `i` can go on from `s`, by the state it goes on to. -/
inductive Effect (i : Instr) (s : State) : State → Prop
  /-- Presented while busy and of the held lines (20_memory.md rule R63). -/
  | held (hb : s.busy = true) (hi : heldInstr i = true) : Effect i s s
  /-- A pure operation. -/
  | returned (v : Value) (hi : heldInstr i = false) : Effect i s (setResult v s)
  /-- GET (rule R115). -/
  | snapshot (hi : i = .get) : Effect i s (observe (.snapshot s.dev) s)
  /-- A response row by itself. -/
  | responded (r : Response) (hb : s.busy = false) (hi : (encode i).line = .rsp) : Effect i s (respond r s)
  /-- An update form that stage 1 rejects (rule R103). -/
  | rejected (f : Field) (n : Int) (hb : s.busy = false) (hi : (encode i).line = .u) :
      Effect i s (raise (.outOfRange f n) s)
  /-- An update form that is committed, encoded and emitted (rules R104 and R105). -/
  | updated (u : Update) (hb : s.busy = false) (hi : (encode i).line = .u) (hu : firstInvalid u = none)
      (hv : (s.dev.commit u).Valid) :
      Effect i s (emitThen .update (encodeDevice (s.dev.commit u))
        (setDevice (s.dev.commit u) (encodeDevice (s.dev.commit u)) s))
  /-- RESET (rule R100). -/
  | reset (w0 w1 w2 : Word) (hb : s.busy = false) (hi : i = .reset w0 w1 w2) : Effect i s (resetBlock w0 w1 w2 s)
  /-- CONFIGURE (rule R201). -/
  | configured (hb : s.busy = false) (hi : i = .configure) : Effect i s (setConfigured Config.transport s)
  /-- EMIT by itself (rule R202). -/
  | emitted (b : Bits) (hb : s.busy = false) (hi : i = .emit b) : Effect i s (emitThen .emit b s)

theorem effect_of_give {i : Instr} {s t : State} {v : Value} (hi : heldInstr i = false) (h : give v s = .next t) :
    Effect i s t := by
  obtain rfl : setResult v s = t := by simpa using h
  exact .returned v hi

theorem effect_of_giveUnless {i : Instr} {s t : State} {bad : Option Field} {v : Value} (hi : heldInstr i = false)
    (h : giveUnless bad v s = .next t) : Effect i s t := by
  obtain ⟨-, rfl⟩ := giveUnless_next h
  exact .returned v hi

theorem effect_of_runUpdate {i : Instr} {s t : State} {u : Update} (hi : (encode i).line = .u)
    (h : runUpdate u s = .next t) : Effect i s t := by
  obtain ⟨hb, rfl⟩ | ⟨hb, f, n, -, rfl⟩ | ⟨hb, hu, hv, rfl⟩ := runUpdate_next h
  · exact .held hb (by rw [heldInstr, hi]; rfl)
  · exact .rejected f n hb hi
  · exact .updated u hb hi hu hv

/-- A held operation that always has a next state when idle goes on to that state, or is held. -/
theorem effect_of_whenIdle {i : Instr} {s t : State} {f : State → State} (hi : heldInstr i = true)
    (hf : s.busy = false → Effect i s (f s)) (h : whenIdle s (fun s => .next (f s)) = .next t) : Effect i s t := by
  obtain ⟨hb, rfl⟩ | ⟨hb, hk⟩ := whenIdle_next h
  · exact .held hb hi
  · obtain rfl : f s = t := by simpa using hk
    exact hf hb

/-- Every operation with a next state has had one of the effects. -/
theorem effect_of_exec {i : Instr} {s t : State} (h : exec i s = .next t) : Effect i s t := by
  cases i with
  | update u => exact effect_of_runUpdate (u := u) rfl h
  | setPilot v => exact effect_of_runUpdate (u := { pilot := some v }) rfl h
  | setLight n => exact effect_of_runUpdate (u := { light := some n }) rfl h
  | setThermostat v => exact effect_of_runUpdate (u := { thermostat := some v }) rfl h
  | setPower v => exact effect_of_runUpdate (u := { power := some v }) rfl h
  | setFront v => exact effect_of_runUpdate (u := { front := some v }) rfl h
  | setFan n => exact effect_of_runUpdate (u := { fan := some n }) rfl h
  | setAux v => exact effect_of_runUpdate (u := { aux := some v }) rfl h
  | setFlame n => exact effect_of_runUpdate (u := { flame := some n }) rfl h
  | resend => exact effect_of_runUpdate (u := {}) rfl h
  | reset w0 w1 w2 => exact effect_of_whenIdle rfl (fun hb => .reset w0 w1 w2 hb rfl) h
  | get =>
    obtain rfl : observe (.snapshot s.dev) s = t := by simpa [exec, execGet] using h
    exact .snapshot rfl
  | rspOk | rspOutOfRange | rspTransportFailure =>
    exact effect_of_whenIdle rfl (fun hb => .responded _ hb rfl) h
  | configure => exact effect_of_whenIdle rfl (fun hb => .configured hb rfl) h
  | emit b => exact effect_of_whenIdle rfl (fun hb => .emitted b hb rfl) h
  | cw1 | cw2 | assemble | encode => exact effect_of_giveUnless rfl h
  | ser | ecc1High | ecc1Low | ecc2High | ecc2Low | ecc1 | ecc2 | parity | frame | tail | symseq | linecodeSync
  | linecodeZero | linecodeOne | linecodePad | expand | pack => exact effect_of_give rfl h

/-! ### What becomes of the registers -/

@[simp] theorem commit_serial0 (u : Update) (d : Device) : (d.commit u).serial0 = d.serial0 := rfl
@[simp] theorem commit_serial1 (u : Update) (d : Device) : (d.commit u).serial1 = d.serial1 := rfl
@[simp] theorem commit_serial2 (u : Update) (d : Device) : (d.commit u).serial2 = d.serial2 := rfl

/-- Handing a sequence over writes no register, whatever the transport answers. -/
@[simp] theorem emitThen_dev (c : Caller) (b : Bits) (s : State) : (emitThen c b s).dev = s.dev := by
  obtain ⟨-, he⟩ | ⟨a, as, -, he⟩ := emitThen_cases c b s
  · rw [he, handOver_eq]
  · obtain ⟨-, hdev, -⟩ := finish_frame c a (setAnswers as (handOver c b s))
    rw [he, hdev, setAnswers_dev, handOver_eq]

/-- The registers after an operation: as they were, or committed by an update form, or as RESET writes them. -/
theorem Effect.dev_cases {i : Instr} {s t : State} (h : Effect i s t) :
    t.dev = s.dev ∨
    ((encode i).line = .u ∧ ∃ u, t.dev = s.dev.commit u) ∨
    (∃ w0 w1 w2, i = .reset w0 w1 w2 ∧ t.dev = Device.afterReset w0 w1 w2) := by
  cases h with
  | held | returned | snapshot | responded | rejected | configured => exact .inl rfl
  | emitted => exact .inl (emitThen_dev ..)
  | updated u _ hi => exact .inr (.inl ⟨hi, u, by simp⟩)
  | reset w0 w1 w2 _ hi => exact .inr (.inr ⟨w0, w1, w2, hi, rfl⟩)

/-- RESET of a block that is not busy always goes on, to the state of rule R100. -/
theorem exec_reset_idle {s : State} (w0 w1 w2 : Word) (hb : s.busy = false) :
    exec (.reset w0 w1 w2) s = .next (resetBlock w0 w1 w2 s) := by
  simp [exec, execReset, runReset, hb]

/-- Settles O14: a commit keeps the serial words, so of the ways the registers can change RESET's alone writes them. -/
theorem serialWrittenOnlyByReset : Obligations.SerialWrittenOnlyByReset := by
  refine ⟨fun i s t hi h => ?_, fun s w0 w1 w2 hb => ⟨_, exec_reset_idle w0 w1 w2 hb, rfl, rfl, rfl⟩⟩
  obtain hdev | ⟨-, u, hdev⟩ | ⟨w0, w1, w2, rfl, -⟩ := (effect_of_exec h).dev_cases
  · simp [hdev]
  · simp [hdev]
  · exact absurd rfl (hi w0 w1 w2)

end Sys2Proof.Machine

namespace Sys2Proof.Machine

/-! Proofs about the single-field forms: each is UPDATE with a fixed selection
of fields. -/

/-- The UPDATE that an operation of the update line stands for (30_encoding.md rule R98); no other operation stands for
one. -/
def standsFor : Instr → Option Update
  | .update u => some u
  | .setPilot v => some { pilot := some v }
  | .setLight n => some { light := some n }
  | .setThermostat v => some { thermostat := some v }
  | .setPower v => some { power := some v }
  | .setFront v => some { front := some v }
  | .setFan n => some { fan := some n }
  | .setAux v => some { aux := some v }
  | .setFlame n => some { flame := some n }
  | .resend => some {}
  | _ => none

/-- An operation that stands for an UPDATE runs that UPDATE's stages (40_state_update.md rule R101). -/
theorem exec_eq_runUpdate {i : Instr} {u : Update} (hi : standsFor i = some u) (s : State) :
    exec i s = runUpdate u s := by
  cases i with
  | update | setPilot | setLight | setThermostat | setPower | setFront | setFan | setAux | setFlame | resend =>
    obtain rfl := Option.some.inj hi
    rfl
  | _ => cases hi

theorem exec_eq_exec_update {i : Instr} {u : Update} (hi : standsFor i = some u) (s : State) :
    exec i s = exec (.update u) s :=
  (exec_eq_runUpdate hi s).trans (exec_eq_runUpdate (i := .update u) rfl s).symm

/-- Settles O7: each form runs the stages of the UPDATE it stands for, and so does that UPDATE itself. -/
theorem singleFieldFormsAreUpdates : Obligations.SingleFieldFormsAreUpdates := by
  intro s v n
  refine ⟨?setPilot, ?setLight, ?setThermostat, ?setPower, ?setFront, ?setFan, ?setAux, ?setFlame, ?resend⟩
  all_goals exact exec_eq_exec_update rfl s

end Sys2Proof.Machine

namespace Sys2Proof.Machine

/-! Proofs about the effect on the state: what the commit writes to each register, and what RESET and GET do to the
whole state. -/

/-! ### What the commit writes -/

@[simp] theorem commit_pilot (u : Update) (d : Device) : (d.commit u).pilot = u.pilot.getD d.pilot := rfl
@[simp] theorem commit_light (u : Update) (d : Device) : (d.commit u).light = (u.light.map toLevel).getD d.light := rfl
@[simp] theorem commit_thermostat (u : Update) (d : Device) :
    (d.commit u).thermostat = u.thermostat.getD d.thermostat := rfl
@[simp] theorem commit_power (u : Update) (d : Device) : (d.commit u).power = u.power.getD d.power := rfl
@[simp] theorem commit_front (u : Update) (d : Device) : (d.commit u).front = u.front.getD d.front := rfl
@[simp] theorem commit_fan (u : Update) (d : Device) : (d.commit u).fan = (u.fan.map toLevel).getD d.fan := rfl
@[simp] theorem commit_aux (u : Update) (d : Device) : (d.commit u).aux = u.aux.getD d.aux := rfl
@[simp] theorem commit_flame (u : Update) (d : Device) : (d.commit u).flame = (u.flame.map toLevel).getD d.flame := rfl

/-- A level register selected with a value in range holds that number after the commit. -/
theorem selected_level_toNat {o : Option Int} {n : Int} (l : Level) (ho : o = some n) (h0 : 0 ≤ n) (h6 : n ≤ 6) :
    (((o.map toLevel).getD l).toNat : Int) = n := by
  subst ho
  exact toLevel_toNat n ((levelValid_iff n).mpr ⟨h0, h6⟩)

/-- A level register that is not selected keeps its value. -/
theorem unselected_level {o : Option Int} (l : Level) (ho : o = none) : (o.map toLevel).getD l = l := by
  subst ho
  rfl

/-- Validation passes a level field exactly when the value selected for it, if any, is in range (rule R103). -/
theorem invalidLevel_eq_none_iff_inRange (o : Option Int) : invalidLevel o = none ↔ InRange o := by
  simp only [invalidLevel_eq_none_iff, levelValid_iff, InRange]

/-- Stage 1 passes an update whose three levels are in range (rule R103). -/
theorem firstInvalid_eq_none_of_inRange {u : Update} (hl : InRange u.light) (hf : InRange u.fan)
    (hm : InRange u.flame) : firstInvalid u = none := by
  simp only [firstInvalid_eq_none_iff, invalidLevel_eq_none_iff_inRange]
  exact ⟨hl, hf, hm⟩

/-- Settles O17, register by register: a flag is its selected value or else the old one, a level likewise through
`toLevel`, which is exact on 0 to 6; valid levels stay valid because stage 1 passes those in range. -/
theorem commitWritesTheSelectedRegisters : Obligations.CommitWritesTheSelectedRegisters := by
  intro u d
  refine ⟨?pilot, ?pilotKept, fun n => ?light, ?lightKept, ?thermostat, ?thermostatKept, ?power, ?powerKept, ?front,
    ?frontKept, fun n => ?fan, ?fanKept, ?aux, ?auxKept, fun n => ?flame, ?flameKept, commit_serial0 u d,
    commit_serial1 u d, commit_serial2 u d, ?valid⟩
  case light | fan | flame => exact selected_level_toNat _
  case lightKept | fanKept | flameKept => exact unselected_level _
  case pilot | thermostat | power | front | aux =>
    intro v hv
    simp [hv]
  case pilotKept | thermostatKept | powerKept | frontKept | auxKept =>
    intro hn
    simp [hn]
  case valid =>
    intro hd hl hf hm
    exact commit_valid u d (firstInvalid_eq_none_of_inRange hl hf hm) hd

/-! ### RESET and GET -/

/-- RESET of a busy block is held: the state stays as it is (20_memory.md rule R63). -/
theorem exec_reset_busy {s : State} (w0 w1 w2 : Word) (hb : s.busy = true) : exec (.reset w0 w1 w2) s = .next s := by
  simp [exec, execReset, runReset, hb]

/-- Settles O24: a busy block holds RESET, and any other goes on to `resetBlock`, whose fields the statement lists. -/
theorem resetSetsEveryRegisterAndEmitsNothing : Obligations.ResetSetsEveryRegisterAndEmitsNothing := by
  intro s w0 w1 w2
  refine ⟨?busy, ?idle⟩
  case busy => exact exec_reset_busy w0 w1 w2
  case idle => exact exec_reset_idle w0 w1 w2

/-- GET has no case split: busy or not, its only effect is one more observation (rules R59 and R115). -/
theorem exec_get (s : State) : exec .get s = .next (observe (.snapshot s.dev) s) := rfl

/-- Settles O26: what GET adds to the observation is the snapshot of the registers, and `observe` writes no other
field. -/
theorem getReturnsTheRegisters : Obligations.GetReturnsTheRegisters := exec_get

end Sys2Proof.Machine

namespace Sys2Proof.Machine

/-! Proofs about the packet encoder: what its operations return, the command words as numbers, and the registers read
back from a Packet. -/

/-! ### What the operations return -/

/-- What claims expect of a pure operation is what `give` does. -/
@[simp] theorem returning_eq_setResult (v : Value) (s : State) : returning v s = setResult v s := rfl

/-- SER has no case split: any index, any registers (41_packet_encoder.md rule R121). -/
theorem exec_ser (i : Fin 3) (s : State) : exec (.ser i) s = .next (returning (.word (s.dev.serial i)) s) := rfl

/-- CW1 returns its word where the level it encodes is valid (rules R122 and R127). -/
theorem exec_cw1 {s : State} (hl : s.dev.light.toNat ≤ 6) : exec .cw1 s = .next (returning (.word (cw1 s.dev)) s) := by
  have hlight := (levelOk_iff _).mpr hl
  simp [exec, execCw1, hlight]

/-- CW2 returns its word where both levels it encodes are valid (rules R123 and R127). -/
theorem exec_cw2 {s : State} (hf : s.dev.fan.toNat ≤ 6) (hm : s.dev.flame.toNat ≤ 6) :
    exec .cw2 s = .next (returning (.word (cw2 s.dev)) s) := by
  have hfan := (levelOk_iff _).mpr hf
  have hflame := (levelOk_iff _).mpr hm
  simp [exec, execCw2, hfan, hflame]

/-- ASSEMBLE returns the Packet where all levels are valid (rules R120 and R127). -/
theorem exec_assemble {s : State} (hv : s.dev.Valid) :
    exec .assemble s = .next (returning (.packet (assemble s.dev)) s) := by
  have hbad := (badLevel_eq_none_iff _).mpr hv
  simp [exec, execAssemble, hbad]

/-- Settles O30: the serial words of index 0, 1 and 2 are the three serial registers. -/
theorem serCopiesTheSerialWord : Obligations.SerCopiesTheSerialWord :=
  fun s => ⟨exec_ser 0 s, exec_ser 1 s, exec_ser 2 s⟩

/-- Settles O34: the Packet that `assemble` makes lists the seven words in the order of rule R124. -/
theorem assembleReturnsTheSevenWords : Obligations.AssembleReturnsTheSevenWords := fun _ hv => exec_assemble hv

/-! ### The command words as numbers -/

/-- The number of two bit strings written one after the other: the second is the low digits. -/
theorem bitVec_append_toNat {m n : Nat} (x : BitVec m) (y : BitVec n) :
    (x ++ y).toNat = x.toNat * 2 ^ n + y.toNat := by
  rw [BitVec.toNat_append, ← Nat.shiftLeft_add_eq_or_of_lt y.isLt, Nat.shiftLeft_eq]

@[simp] theorem bit_toNat (b : Bool) : (bit b).toNat = b.toNat := BitVec.toNat_ofBool b

@[simp] theorem bin3_toNat (l : Level) : (bin3 l).toNat = l.toNat := rfl

/-- Each field of CW1 at the weight of its lowest bit, whatever the level (rule R122). -/
theorem cw1_toNat (d : Device) :
    (cw1 d).toNat = 256 * d.pilot.toNat + 32 * d.light.toNat + 4 * d.thermostat.toNat + 2 * d.power.toNat := by
  simp only [cw1, bitVec_append_toNat, bit_toNat, bin3_toNat, BitVec.toNat_ofNat]
  omega

/-- Each field of CW2 at the weight of its lowest bit, whatever the levels (rule R123). -/
theorem cw2_toNat (d : Device) :
    (cw2 d).toNat = 256 * d.front.toNat + 32 * d.fan.toNat + 16 * d.aux.toNat + 2 * d.flame.toNat := by
  simp only [cw2, bitVec_append_toNat, bit_toNat, bin3_toNat, BitVec.toNat_ofNat]
  omega

/-- Settles O31: CW1 is not refused, and its word is the number of its fields. -/
theorem commandWord1OfTheRegisters : Obligations.CommandWord1OfTheRegisters :=
  fun s hl => ⟨cw1 s.dev, exec_cw1 hl, cw1_toNat s.dev⟩

/-- Settles O32: CW2 is not refused, and its word is the number of its fields. -/
theorem commandWord2OfTheRegisters : Obligations.CommandWord2OfTheRegisters :=
  fun s hf hm => ⟨cw2 s.dev, exec_cw2 hf hm, cw2_toNat s.dev⟩

/-! ### The registers read back from a Packet -/

/-- Two bit strings written one after the other can be cut apart again. -/
theorem bitVec_append_inj {m n : Nat} {x x' : BitVec m} {y y' : BitVec n} : x ++ y = x' ++ y' ↔ x = x' ∧ y = y' := by
  constructor
  · intro h
    obtain rfl : y = y' := by simpa only [BitVec.setWidth_append_eq_right] using congrArg (BitVec.setWidth n) h
    exact ⟨(BitVec.append_left_inj y).mp h, rfl⟩
  · rintro ⟨rfl, rfl⟩
    rfl

@[simp] theorem bit_inj {a b : Bool} : bit a = bit b ↔ a = b := by
  revert a b
  decide

@[simp] theorem bin3_inj {l k : Level} : bin3 l = bin3 k ↔ l = k := Iff.rfl

/-- CW1 determines the four registers it is written from: its fields have fixed places and do not overlap. -/
theorem cw1_inj {d e : Device} (h : cw1 d = cw1 e) :
    d.pilot = e.pilot ∧ d.light = e.light ∧ d.thermostat = e.thermostat ∧ d.power = e.power := by
  obtain ⟨h, -⟩ := bitVec_append_inj.mp h
  simpa only [bitVec_append_inj, bit_inj, bin3_inj, and_true, and_assoc] using h

/-- CW2 determines the four registers it is written from. -/
theorem cw2_inj {d e : Device} (h : cw2 d = cw2 e) :
    d.front = e.front ∧ d.fan = e.fan ∧ d.aux = e.aux ∧ d.flame = e.flame := by
  obtain ⟨h, -⟩ := bitVec_append_inj.mp h
  simpa only [bitVec_append_inj, bit_inj, bin3_inj, and_true, and_assoc] using h

/-- Settles O35: three words of the Packet are the serial registers, and the two command words determine the eight
control registers; the ECC words are not needed. -/
theorem assembleIsInjective : Obligations.AssembleIsInjective := by
  intro d e h
  obtain ⟨hser0, hser1, hser2, hcw1, hcw2, -, -⟩ := Packet.mk.inj h
  obtain ⟨hpilot, hlight, hthermostat, hpower⟩ := cw1_inj hcw1
  obtain ⟨hfront, hfan, haux, hflame⟩ := cw2_inj hcw2
  cases d
  cases e
  rw [Device.mk.injEq]
  exact ⟨hpilot, hlight, hthermostat, hpower, hfront, hfan, haux, hflame, hser0, hser1, hser2⟩

end Sys2Proof.Machine

namespace Sys2Proof.Machine

/-! Proofs about the checksum generator: `shl4`, the four nibbles bit by bit, the nibbles of a command word read back
from those of its ECC word, and which bits of a command word its ECC word depends on. -/

/-! ### The shift -/

theorem shl4_toNat (x : Nibble) : (shl4 x).toNat = 2 * x.toNat % 16 := BitVec.toNat_ofNat _ 4

/-- Within four bits doubling is the shift by one place, which loses the top bit (rule R141). -/
theorem shl4_eq_shiftLeft (x : Nibble) : shl4 x = x <<< 1 := by
  apply BitVec.eq_of_toNat_eq
  rw [shl4_toNat, BitVec.toNat_shiftLeft, Nat.shiftLeft_eq, Nat.mul_comm]

/-- The law that rule R151 rests on. -/
theorem shl4_xor (x y : Nibble) : shl4 (x ^^^ y) = shl4 x ^^^ shl4 y := by
  simp only [shl4_eq_shiftLeft, BitVec.shiftLeft_xor_distrib]

/-- Settles O37: the number is the definition's own, and the bits are those of a shift by one. -/
theorem shl4DropsTheTopBit : Obligations.Shl4DropsTheTopBit := by
  intro x
  refine ⟨shl4_toNat x, ?_, ?_, ?_, ?_⟩
  all_goals simp [shl4_eq_shiftLeft]

/-! ### The four nibbles -/

/-- The mask to four bits does nothing (rule R140). -/
theorem and_mask (x : Nibble) : x &&& 0xF#4 = x := BitVec.and_allOnes

/-- The other form of ECC1_HIGH: its two shifts are one shift of ECC1_LOW (rule R151). -/
theorem ecc1High_eq (h l : Nibble) : ecc1High h l = 0xD#4 ^^^ h ^^^ shl4 (ecc1Low h l) := by
  rw [ecc1High, and_mask, ecc1Low, shl4_xor, ← BitVec.xor_assoc]
  rfl

/-- ECC2's high nibble is ECC1's without the constant (rule R145). -/
theorem ecc2High_eq_ecc1High (h l : Nibble) : ecc2High h l = ecc1High h l ^^^ 0xD#4 := by
  rw [ecc1High_eq, ecc2High, and_mask, ecc1Low, shl4_xor]
  grind

/-- ECC2's low nibble is ECC1's with a constant of its own (rule R146). -/
theorem ecc2Low_eq_ecc1Low (h l : Nibble) : ecc2Low h l = ecc1Low h l ^^^ 0x7#4 := rfl

/-- The other form of ECC2_HIGH: the shift also moves ECC2_LOW's constant 0x7, which 0xE takes out again. -/
theorem ecc2High_eq (h l : Nibble) : ecc2High h l = h ^^^ shl4 (ecc2Low h l) ^^^ 0xE#4 := by
  have hmix : shl4 0x7#4 = 0xE#4 := rfl
  rw [ecc2High_eq_ecc1High, ecc1High_eq, ecc2Low_eq_ecc1Low, shl4_xor, hmix]
  grind

/-- Settles O38: each operation returns its nibble at every state, and a bit of the nibble is the exclusive or of the
terms' bits, the shifted terms giving the next lower one. -/
theorem eccNibbles : Obligations.EccNibbles := by
  intro s h l
  refine ⟨⟨ecc1High h l, rfl, ?_⟩, ⟨ecc1Low h l, rfl, ?_⟩, ⟨ecc2High h l, rfl, ?_⟩, ⟨ecc2Low h l, rfl, ?_⟩⟩
  · simp [ecc1High_eq, ecc1Low, shl4_eq_shiftLeft]
  · intro k _
    simp [ecc1Low]
  · simp [ecc2High_eq_ecc1High, ecc1High_eq, ecc1Low, shl4_eq_shiftLeft]
  · simp [ecc2Low_eq_ecc1Low, ecc1Low]

/-! ### The nibbles of a command word read back -/

/-- The spec's inverse of the first map (rule R151). -/
theorem hi_eq_of_ecc1 (h l : Nibble) : h = ecc1High h l ^^^ 0xD#4 ^^^ shl4 (ecc1Low h l) := by
  rw [ecc1High_eq]
  grind

theorem lo_eq_of_ecc1 (h l : Nibble) : l = h ^^^ ecc1Low h l := by
  simp [ecc1Low]

/-- The spec's inverse of the second map (rule R151). -/
theorem hi_eq_of_ecc2 (h l : Nibble) : h = ecc2High h l ^^^ 0xE#4 ^^^ shl4 (ecc2Low h l) := by
  rw [ecc2High_eq]
  grind

theorem lo_eq_of_ecc2 (h l : Nibble) : l = h ^^^ ecc2Low h l ^^^ 0x7#4 := by
  rw [ecc2Low_eq_ecc1Low, ecc1Low]
  grind

/-- The two nibbles of ECC1 determine the two they are made from, by the inverse. -/
theorem ecc1_nibbles_inj {h l h' l' : Nibble} :
    ecc1High h l = ecc1High h' l' ∧ ecc1Low h l = ecc1Low h' l' ↔ h = h' ∧ l = l' := by
  constructor
  · rintro ⟨hhigh, hlow⟩
    have hh : h = h' := by rw [hi_eq_of_ecc1 h l, hhigh, hlow, ← hi_eq_of_ecc1]
    have hl : l = l' := by rw [lo_eq_of_ecc1 h l, hlow, hh, ← lo_eq_of_ecc1]
    exact ⟨hh, hl⟩
  · rintro ⟨rfl, rfl⟩
    exact ⟨rfl, rfl⟩

/-- So do those of ECC2, which differ from ECC1's by constants alone. -/
theorem ecc2_nibbles_inj {h l h' l' : Nibble} :
    ecc2High h l = ecc2High h' l' ∧ ecc2Low h l = ecc2Low h' l' ↔ h = h' ∧ l = l' := by
  simp only [ecc2High_eq_ecc1High, ecc2Low_eq_ecc1Low, BitVec.xor_left_inj, ecc1_nibbles_inj]

/-- Settles O41: the equations are the lemmas above, and a map on the 256 pairs that loses nothing is a bijection. -/
theorem eccMapsAreUndone : Obligations.EccMapsAreUndone := by
  refine ⟨fun h l => ⟨shl4_xor h l, ecc1High_eq h l, ecc2High_eq h l, hi_eq_of_ecc1 h l, lo_eq_of_ecc1 h l,
    hi_eq_of_ecc2 h l, lo_eq_of_ecc2 h l⟩, ?ecc1, ?ecc2⟩
  case ecc1 =>
    refine Finite.injective_iff_bijective.mp fun p q hpq => ?_
    exact Prod.ext_iff.mpr (ecc1_nibbles_inj.mp (Prod.mk.inj hpq))
  case ecc2 =>
    refine Finite.injective_iff_bijective.mp fun p q hpq => ?_
    exact Prod.ext_iff.mpr (ecc2_nibbles_inj.mp (Prod.mk.inj hpq))

/-! ### What an ECC word depends on -/

theorem eccWord_inj {a b c d : Nibble} : eccWord a b = eccWord c d ↔ a = c ∧ b = d := by
  rw [eccWord, eccWord, bitVec_append_inj, bitVec_append_inj, and_iff_left rfl]

/-- ECC1 of a word tells the word's two nibbles, and nothing else (rule R151). -/
theorem ecc1_eq_iff {w v : Word} : ecc1 w = ecc1 v ↔ hiNibble w = hiNibble v ∧ loNibble w = loNibble v := by
  rw [ecc1, ecc1, eccWord_inj, ecc1_nibbles_inj]

/-- ECC2 of a word tells just as much. -/
theorem ecc2_eq_iff {w v : Word} : ecc2 w = ecc2 v ↔ hiNibble w = hiNibble v ∧ loNibble w = loNibble v := by
  rw [ecc2, ecc2, eccWord_inj, ecc2_nibbles_inj]

theorem getLsbD_hiNibble {k : Nat} (hk : k < 4) (w : Word) : (hiNibble w).getLsbD k = w.getLsbD (5 + k) := by
  simp [hiNibble, hk]

theorem getLsbD_loNibble {k : Nat} (hk : k < 4) (w : Word) : (loNibble w).getLsbD k = w.getLsbD (1 + k) := by
  simp [loNibble, hk]

/-- The two nibbles of a word are its bits 8 to 1: all but the pad bit (00_scope.md rule R11). -/
theorem nibbles_eq_iff {w v : Word} :
    hiNibble w = hiNibble v ∧ loNibble w = loNibble v ↔ ∀ k, 1 ≤ k → k ≤ 8 → w.getLsbD k = v.getLsbD k := by
  constructor
  · rintro ⟨hhi, hlo⟩ k h1 h8
    obtain h4 | h5 := Nat.lt_or_ge k 5
    · obtain ⟨j, rfl⟩ := Nat.exists_eq_add_of_le h1
      have hj : j < 4 := by omega
      rw [← getLsbD_loNibble hj, hlo, getLsbD_loNibble hj]
    · obtain ⟨j, rfl⟩ := Nat.exists_eq_add_of_le h5
      have hj : j < 4 := by omega
      rw [← getLsbD_hiNibble hj, hhi, getLsbD_hiNibble hj]
  · intro h
    refine ⟨BitVec.eq_of_getLsbD_eq fun k hk => ?hi, BitVec.eq_of_getLsbD_eq fun k hk => ?lo⟩
    case hi => rw [getLsbD_hiNibble hk, getLsbD_hiNibble hk, h (5 + k) (by omega) (by omega)]
    case lo => rw [getLsbD_loNibble hk, getLsbD_loNibble hk, h (1 + k) (by omega) (by omega)]

/-- Flipping a bit of a word changes that bit alone. -/
theorem getLsbD_flip {j : Nat} (hj : j < 9) (w : Word) (k : Nat) :
    (w ^^^ BitVec.twoPow 9 j).getLsbD k = (w.getLsbD k ^^ decide (j = k)) := by
  simp [hj]

/-- Settles O42: the flipped word agrees with the word on the data bits exactly when the flipped bit is the pad bit. -/
theorem flippedDataBitChangesTheEccWord : Obligations.FlippedDataBitChangesTheEccWord := by
  intro w
  simp only [ne_eq, ecc1_eq_iff, ecc2_eq_iff, nibbles_eq_iff, and_self]
  refine ⟨fun k h1 h8 hagree => ?dataBit, fun k h1 _ => ?padBit⟩
  case dataBit =>
    have hflip := getLsbD_flip (Nat.lt_succ_of_le h8) w k
    simp [hagree k h1 h8] at hflip
  case padBit =>
    have hne : 0 ≠ k := by omega
    rw [getLsbD_flip (Nat.zero_lt_succ 8)]
    simp [hne]

end Sys2Proof.Machine

namespace Sys2Proof.Machine

/-! Proofs about the symbol framer: parity as a sum and as an exclusive or, a frame as a SYNC before symbols of bits,
where the frame of each word stands in a symbol sequence, and what the sequence holds in all. -/

/-! ### What the operations return -/

theorem exec_parity (w : Word) (s : State) : exec (.parity w) s = .next (returning (.bit (parity w)) s) := rfl

theorem exec_frame (w : Word) (s : State) : exec (.frame w) s = .next (returning (.symbols (frame w)) s) := rfl

theorem exec_tail (s : State) : exec .tail s = .next (returning (.symbols tail) s) := rfl

theorem exec_symseq (p : Packet) (s : State) : exec (.symseq p) s = .next (returning (.symbols (symseq p)) s) := rfl

/-! ### Parity -/

/-- An odd number of ones is an exclusive or of 1, over any bits. -/
theorem odd_count_true_eq_foldr_xor (b : Bits) : decide (b.count true % 2 = 1) = b.foldr xor false := by
  induction b with
  | nil => rfl
  | cons x xs ih =>
    rw [List.foldr_cons, ← ih]
    cases x with
    | false => simp
    | true =>
      rw [List.count_cons_self, Bool.true_xor, ← decide_not, decide_eq_decide]
      omega

/-- The two forms of PARITY in rule R160 agree. -/
theorem parity_eq_xor (w : Word) :
    parity w = (w.getLsbD 8 ^^ w.getLsbD 7 ^^ w.getLsbD 6 ^^ w.getLsbD 5 ^^ w.getLsbD 4 ^^ w.getLsbD 3 ^^
      w.getLsbD 2 ^^ w.getLsbD 1 ^^ w.getLsbD 0) := by
  rw [parity, popcount, odd_count_true_eq_foldr_xor]
  simp [contentBits]

theorem parity_toNat (w : Word) : (parity w).toNat = popcount w % 2 := by
  rw [parity]
  obtain h | h := Nat.mod_two_eq_zero_or_one (popcount w)
  · simp [h]
  · simp [h]

theorem contentBits_eq_reverse (w : Word) : contentBits w = ((List.range 9).map w.getLsbD).reverse := rfl

/-- The order of the content bits does not matter to their number of ones. -/
theorem popcount_eq_countP (w : Word) : popcount w = (List.range 9).countP fun k => w.getLsbD k := by
  rw [popcount, contentBits_eq_reverse, List.count_reverse, List.count, List.countP_map]
  congr 1
  funext k
  simp

/-- Settles O43: the bit is `parity w`. -/
theorem parityAndFrameOfAWord : Obligations.ParityAndFrameOfAWord := by
  intro s w
  refine ⟨parity w, parity_eq_xor w, ?_, exec_parity w s, exec_frame w s⟩
  rw [parity_toNat, popcount_eq_countP]

/-! ### One frame -/

@[simp] theorem sym_true : sym true = .one := rfl

theorem sym_injective : Function.Injective sym := by
  unfold Function.Injective
  decide

theorem sync_not_mem_map_sym (b : Bits) : .sync ∉ b.map sym := by
  have hne : ∀ x, sym x ≠ .sync := by decide
  simp [hne]

theorem pad_not_mem_map_sym (b : Bits) : .pad ∉ b.map sym := by
  have hne : ∀ x, sym x ≠ .pad := by decide
  simp [hne]

/-- A frame is a SYNC and then symbols of bits alone: the guards are the symbol of a 1 (rule R161). -/
theorem frame_eq_sync_cons (w : Word) : frame w = .sync :: (true :: (contentBits w ++ [parity w, true])).map sym := by
  simp [frame]

theorem frame_getElem?_eq_sync_iff (w : Word) (j : Nat) : (frame w)[j]? = some .sync ↔ j = 0 := by
  rw [frame_eq_sync_cons]
  cases j with
  | zero => simp
  | succ j =>
    rw [List.getElem?_cons_succ, iff_false_right j.succ_ne_zero]
    exact fun h => sync_not_mem_map_sym _ (List.mem_of_getElem? h)

theorem pad_not_mem_frame (w : Word) : .pad ∉ frame w := by
  rw [frame_eq_sync_cons, List.mem_cons, not_or]
  exact ⟨by decide, pad_not_mem_map_sym _⟩

theorem count_sync_frame (w : Word) : (frame w).count .sync = 1 := by
  rw [frame_eq_sync_cons, List.count_cons_self, List.count_eq_zero_of_not_mem (sync_not_mem_map_sym _)]

theorem count_pad_frame (w : Word) : (frame w).count .pad = 0 :=
  List.count_eq_zero_of_not_mem (pad_not_mem_frame w)

/-- With its parity the content of a frame holds an even number of ONE (rule R160). -/
theorem count_one_content_and_parity_even (w : Word) :
    ((contentBits w ++ [parity w]).map sym).count .one % 2 = 0 := by
  have hparity : [parity w].count true = (parity w).toNat := by cases parity w <;> rfl
  rw [← sym_true, List.count_map_of_injective _ _ sym_injective, List.count_append, hparity, parity_toNat, popcount]
  omega

theorem frame_getElem?_content (w : Word) {i : Nat} (hi : i ≤ 8) :
    (frame w)[2 + i]? = some (sym (w.getLsbD (8 - i))) := by
  interval_cases i <;> rfl

/-! ### Where the frames stand -/

/-- SYMSEQ with the frames written as one list over the words of the Packet (rule R164). -/
theorem symseq_eq (p : Packet) : symseq p = (packetWords p).flatMap frame ++ List.replicate 9 .pad := by
  simp [symseq, packetWords, tail, Config.tailPadSymbols]

/-- Settles O44: the tail is written out, and the sequence is its words' frames. -/
theorem tailAndSymbolSequence : Obligations.TailAndSymbolSequence := by
  intro s p
  rw [exec_symseq, symseq_eq]
  exact ⟨exec_tail s, rfl⟩

/-- The frame of word `k` begins `13 k` symbols into the frames of a list of words, whatever follows them. -/
theorem frame_isPrefix_drop {ws : List Word} {k : Nat} {w : Word} (hw : ws[k]? = some w) (rest : List Symbol) :
    frame w <+: (ws.flatMap frame ++ rest).drop (13 * k) := by
  induction ws generalizing k with
  | nil => simp at hw
  | cons v vs ih =>
    rw [List.flatMap_cons, List.append_assoc]
    cases k with
    | zero =>
      obtain rfl : v = w := by simpa using hw
      exact ⟨_, rfl⟩
    | succ k =>
      have hshift : 13 * (k + 1) = (frame v).length + 13 * k := by rw [frame_length]; omega
      rw [hshift, List.drop_length_add_append]
      exact ih (by simpa using hw)

theorem frame_isPrefix_drop_symseq {p : Packet} {k : Nat} {w : Word} (hw : (packetWords p)[k]? = some w) :
    frame w <+: (symseq p).drop (13 * k) := by
  rw [symseq_eq]
  exact frame_isPrefix_drop hw _

/-- Symbol `j` of the frame of word `k` stands at `13 k + j` (rule R165). -/
theorem symseq_getElem?_frame {p : Packet} {k j : Nat} {w : Word} (hw : (packetWords p)[k]? = some w) (hj : j < 13) :
    (symseq p)[13 * k + j]? = (frame w)[j]? := by
  obtain ⟨rest, hrest⟩ := frame_isPrefix_drop_symseq hw
  rw [← List.getElem?_drop, ← hrest, List.getElem?_append_left (by simpa using hj)]

/-- From position 91 on there are nine PAD, and then nothing (rule R165). -/
theorem symseq_getElem?_tail (p : Packet) (t : Nat) :
    (symseq p)[91 + t]? = if t < 9 then some .pad else none := by
  have hframes : ((packetWords p).flatMap frame).length = 91 := rfl
  rw [symseq_eq, ← hframes, List.getElem?_append_right (Nat.le_add_right _ _), Nat.add_sub_cancel_left,
    List.getElem?_replicate]

/-- Settles O45: the positions of each frame are those of the frame by itself. -/
theorem symbolPositions : Obligations.SymbolPositions := by
  refine fun p => ⟨fun k w hw => ⟨?sync, ?guardStart, fun i hi => ?content, ?parity, ?guardEnd⟩, fun t ht => ?tail⟩
  case sync => exact symseq_getElem?_frame hw (j := 0) (by decide)
  case guardStart => exact symseq_getElem?_frame hw (j := 1) (by decide)
  case content => rw [Nat.add_assoc, symseq_getElem?_frame hw (by omega), frame_getElem?_content w hi]
  case parity => exact symseq_getElem?_frame hw (j := 11) (by decide)
  case guardEnd => exact symseq_getElem?_frame hw (j := 12) (by decide)
  case tail => rw [symseq_getElem?_tail, if_pos (Nat.lt_succ_of_le ht)]

/-! ### What the sequence holds in all -/

theorem packetWords_getElem?_of_lt (p : Packet) {k : Nat} (hk : k < 7) : ∃ w, (packetWords p)[k]? = some w :=
  ⟨_, List.getElem?_eq_getElem (l := packetWords p) hk⟩

/-- Below the tail every position is one of a frame. -/
theorem symseq_getElem?_of_lt (p : Packet) {i : Nat} (hi : i < 91) : ∃ w, (symseq p)[i]? = (frame w)[i % 13]? := by
  obtain ⟨w, hw⟩ := packetWords_getElem?_of_lt p (k := i / 13) (by omega)
  have hpos := symseq_getElem?_frame hw (Nat.mod_lt i (by decide))
  rw [Nat.div_add_mod] at hpos
  exact ⟨w, hpos⟩

theorem symseq_getElem?_eq_sync_iff (p : Packet) (i : Nat) :
    (symseq p)[i]? = some .sync ↔ i < 91 ∧ i % 13 = 0 := by
  obtain hi | hi := Nat.lt_or_ge i 91
  · obtain ⟨w, hpos⟩ := symseq_getElem?_of_lt p hi
    rw [hpos, frame_getElem?_eq_sync_iff, and_iff_right hi]
  · obtain ⟨t, rfl⟩ := Nat.exists_eq_add_of_le hi
    rw [symseq_getElem?_tail]
    simp

theorem symseq_getElem?_eq_pad_iff (p : Packet) (i : Nat) :
    (symseq p)[i]? = some .pad ↔ 91 ≤ i ∧ i < 100 := by
  obtain hi | hi := Nat.lt_or_ge i 91
  · obtain ⟨w, hpos⟩ := symseq_getElem?_of_lt p hi
    have hpad : (frame w)[i % 13]? ≠ some .pad := fun h => pad_not_mem_frame w (List.mem_of_getElem? h)
    rw [hpos, iff_false_left hpad]
    omega
  · obtain ⟨t, rfl⟩ := Nat.exists_eq_add_of_le hi
    have hlt : 91 + t < 100 ↔ t < 9 := by omega
    simp [symseq_getElem?_tail, hlt]

theorem count_symseq (p : Packet) (x : Symbol) :
    (symseq p).count x =
      ((packetWords p).map fun w => (frame w).count x).sum + (List.replicate 9 Symbol.pad).count x := by
  rw [symseq_eq, List.count_append, List.count_flatMap]
  rfl

/-- One SYNC a frame. -/
theorem count_sync_symseq (p : Packet) : (symseq p).count .sync = 7 := by
  simp only [count_symseq, count_sync_frame]
  rfl

/-- The PAD of the tail alone. -/
theorem count_pad_symseq (p : Packet) : (symseq p).count .pad = 9 := by
  simp only [count_symseq, count_pad_frame]
  rfl

/-- Every symbol is one of the four. -/
theorem count_symbols_eq_length (q : List Symbol) :
    q.count .sync + q.count .pad + (q.count .zero + q.count .one) = q.length := by
  induction q with
  | nil => rfl
  | cons x xs ih =>
    rw [List.length_cons, ← ih]
    cases x <;> grind

/-- Content and parity of the frame of word `k` are the ten symbols from `13 k + 2` on. -/
theorem symseq_content_and_parity {p : Packet} {k : Nat} {w : Word} (hw : (packetWords p)[k]? = some w) :
    ((symseq p).drop (13 * k + 2)).take 10 = (contentBits w ++ [parity w]).map sym := by
  obtain ⟨rest, hrest⟩ := frame_isPrefix_drop_symseq hw
  rw [← List.drop_drop, ← hrest]
  rfl

/-- Settles O46: SYNC and PAD are counted and placed frame by frame, and the other symbols are what is left of the
hundred. -/
theorem symbolCounts : Obligations.SymbolCounts := by
  intro p
  have hsync := count_sync_symseq p
  have hpad := count_pad_symseq p
  have hall := count_symbols_eq_length (symseq p)
  rw [hsync, hpad, symseq_length] at hall
  refine ⟨hsync, hpad, by omega, symseq_getElem?_eq_sync_iff p, symseq_getElem?_eq_pad_iff p, fun k hk => ?frames⟩
  case frames =>
    obtain ⟨w, hw⟩ := packetWords_getElem?_of_lt p hk
    obtain ⟨-, hstart, -, -, hend⟩ := (symbolPositions p).1 k w hw
    refine ⟨hstart, hend, ?_⟩
    rw [symseq_content_and_parity hw]
    exact count_one_content_and_parity_even w

end Sys2Proof.Machine

namespace Sys2Proof.Machine

/-! Proofs about the line coder: the bits of an expansion by the symbols they stand for, what the operations return, and
the bits of an encoded sequence read off its symbol sequence. -/

/-! ### The bits of an expansion -/

/-- The line code of a symbol is the pair that writes it in format LC (44_line_coder.md rule R180). -/
theorem linecode_eq_toPair (x : Symbol) : linecode x = [x.toPair.1, x.toPair.2] := by
  cases x <;> rfl

/-- A bit in a frame is sent as itself and its opposite. -/
theorem linecode_sym (b : Bool) : linecode (sym b) = [b, !b] := by cases b <;> rfl

/-- The sequence that EXPAND returns is the one its operand is written in (rule R183, log 26). -/
theorem expand_eq_symbolsToBits (q : List Symbol) : expand q = symbolsToBits q := by
  induction q with
  | nil => rfl
  | cons x xs ih => simp [symbolsToBits, linecode_eq_toPair, ih]

/-- The expansion has no memory: the bits from a symbol on are those of the symbols from it on (rule R181). -/
theorem expand_drop (q : List Symbol) (i : Nat) : (expand q).drop (2 * i) = expand (q.drop i) := by
  induction q generalizing i with
  | nil => simp
  | cons x xs ih =>
    cases i with
    | zero => rfl
    | succ i =>
      have hshift : 2 * (i + 1) = (linecode x).length + 2 * i := by rw [linecode_length]; omega
      rw [expand_cons, hshift, List.drop_length_add_append, List.drop_succ_cons, ih]

theorem expand_take (q : List Symbol) (i : Nat) : (expand q).take (2 * i) = expand (q.take i) := by
  induction q generalizing i with
  | nil => simp
  | cons x xs ih =>
    cases i with
    | zero => rfl
    | succ i =>
      have hshift : 2 * (i + 1) = (linecode x).length + 2 * i := by rw [linecode_length]; omega
      rw [expand_cons, hshift, List.take_length_add_append, List.take_succ_cons, expand_cons, ih]

/-- Bit `j` of the code of symbol `i` stands at `2 i + j`. -/
theorem expand_getElem? {q : List Symbol} {i j : Nat} {x : Symbol} (hx : q[i]? = some x) (hj : j < 2) :
    (expand q)[2 * i + j]? = (linecode x)[j]? := by
  obtain ⟨hi, rfl⟩ := List.getElem?_eq_some_iff.mp hx
  rw [← List.getElem?_drop, expand_drop, List.drop_eq_getElem_cons hi, expand_cons,
    List.getElem?_append_left (by simpa using hj)]

/-- A SYNC gives two ones, a ZERO and a ONE one each, a PAD none. -/
theorem count_true_expand (q : List Symbol) :
    (expand q).count true = 2 * q.count .sync + (q.count .zero + q.count .one) := by
  induction q with
  | nil => rfl
  | cons x xs ih =>
    rw [expand_cons, List.count_append, ih]
    cases x <;> simp [linecode] <;> omega

/-! ### What the operations return -/

theorem exec_expand (q : List Symbol) (s : State) : exec (.expand q) s = .next (returning (.bits (expand q)) s) := rfl

/-- ENCODE returns the encoded sequence where all levels are valid (rules R186 and R127). -/
theorem exec_encode {s : State} (hv : s.dev.Valid) :
    exec .encode s = .next (returning (.bits (encodeDevice s.dev)) s) := by
  have hbad := (badLevel_eq_none_iff _).mpr hv
  simp [exec, execEncode, hbad]

/-- Settles O48: each operation returns the pair that `linecode` has for its symbol. -/
theorem linecodeTable : Obligations.LinecodeTable := fun _ => ⟨rfl, rfl, rfl, rfl⟩

/-- Settles O52: the encoded sequence is by definition the expansion of the symbol sequence of the Packet. -/
theorem encodeReturnsTheComposition : Obligations.EncodeReturnsTheComposition := fun _ hv => exec_encode hv

/-- Settles O49: the expansion writes its symbols in pairs, and pairs are read back. -/
theorem expansionIsUndoneByPairs : Obligations.ExpansionIsUndoneByPairs := by
  refine fun s q => ⟨expand q, exec_expand q s, expand_length q, ?undone, fun i x hx => ?pair⟩
  case undone => rw [expand_eq_symbolsToBits, bitsToSymbols_symbolsToBits]
  case pair =>
    have hfirst : (expand q)[2 * i]? = (linecode x)[0]? := expand_getElem? (j := 0) hx (by decide)
    have hsecond : (expand q)[2 * i + 1]? = (linecode x)[1]? := expand_getElem? hx (by decide)
    rw [hfirst, hsecond, linecode_eq_toPair]
    rfl

/-! ### Where the symbols of an encoded sequence stand -/

/-- Bit `j` of the code of symbol `i` of the symbol sequence, at its place `m` in the encoded one. -/
theorem encodeDevice_getElem? {d : Device} {i j m : Nat} {x : Symbol} (hx : (symseq (assemble d))[i]? = some x)
    (hm : m = 2 * i + j) (hj : j < 2) : (encodeDevice d)[m]? = (linecode x)[j]? := by
  rw [hm]
  exact expand_getElem? hx hj

theorem encodeDevice_drop (d : Device) (i : Nat) :
    (encodeDevice d).drop (2 * i) = expand ((symseq (assemble d)).drop i) := expand_drop _ i

theorem symseq_drop_frames (p : Packet) : (symseq p).drop 91 = tail := List.drop_left' rfl

/-- The nine PAD of the tail are eighteen zeros (rule R189 (d)). -/
theorem encodeDevice_drop_frames (d : Device) : (encodeDevice d).drop 182 = List.replicate 18 false := by
  rw [encodeDevice_drop d 91, symseq_drop_frames]
  rfl

/-- Settles O50: the two bits of each symbol stand at twice its position in the symbol sequence (rule R165). -/
theorem encodedBitPositions : Obligations.EncodedBitPositions := by
  refine fun d => ⟨fun k w hw => ?frames, fun i h182 h199 => ?tail⟩
  case frames =>
    obtain ⟨hsync, hstart, hcontent, hparity, hend⟩ := (symbolPositions (assemble d)).1 k w hw
    refine ⟨?_, ?_, ?_, ?_, fun i hi => ⟨?_, ?_⟩, ?_, ?_, ?_, ?_⟩
    · exact encodeDevice_getElem? hsync (j := 0) (by omega) (by decide)
    · exact encodeDevice_getElem? hsync (j := 1) (by omega) (by decide)
    · exact encodeDevice_getElem? hstart (j := 0) (by omega) (by decide)
    · exact encodeDevice_getElem? hstart (j := 1) (by omega) (by decide)
    · rw [encodeDevice_getElem? (hcontent i hi) (j := 0) (by omega) (by decide), linecode_sym]; rfl
    · rw [encodeDevice_getElem? (hcontent i hi) (j := 1) (by omega) (by decide), linecode_sym]; rfl
    · rw [encodeDevice_getElem? hparity (j := 0) (by omega) (by decide), linecode_sym]; rfl
    · rw [encodeDevice_getElem? hparity (j := 1) (by omega) (by decide), linecode_sym]; rfl
    · exact encodeDevice_getElem? hend (j := 0) (by omega) (by decide)
    · exact encodeDevice_getElem? hend (j := 1) (by omega) (by decide)
  case tail =>
    obtain ⟨t, rfl⟩ := Nat.exists_eq_add_of_le h182
    rw [← List.getElem?_drop, encodeDevice_drop_frames, List.getElem?_replicate, if_pos (by omega)]

/-! ### The invariants of an encoded sequence -/

/-- Two ones for each of seven SYNC, one for each of the 84 data symbols (rule R189 (b)). -/
theorem count_true_encodeDevice (d : Device) : (encodeDevice d).count true = 98 := by
  obtain ⟨hsync, -, hdata, -⟩ := symbolCounts (assemble d)
  rw [encodeDevice, count_true_expand, hsync, hdata]

/-- How every frame begins and ends (rule R189 (c)): with SYNC and a guard, and with a guard. -/
theorem encodeDevice_frame_ends (d : Device) {k : Nat} (hk : k ≤ 6) :
    ((encodeDevice d).drop (26 * k)).take 4 = [true, true, true, false] ∧
      ((encodeDevice d).drop (26 * k + 24)).take 2 = [true, false] := by
  obtain ⟨w, hw⟩ := packetWords_getElem?_of_lt (assemble d) (Nat.lt_succ_of_le hk)
  obtain ⟨rest, hrest⟩ := frame_isPrefix_drop_symseq hw
  have hstart : 26 * k = 2 * (13 * k) := by omega
  have hend : 26 * k + 24 = 2 * (13 * k + 12) := by omega
  rw [hend, hstart, encodeDevice_drop, encodeDevice_drop, ← List.drop_drop, ← hrest]
  exact ⟨rfl, rfl⟩

/-- The two bits of a symbol are alike for SYNC and PAD only. -/
theorem linecode_bits_eq_iff (x : Symbol) : (linecode x)[0]? = (linecode x)[1]? ↔ x = .sync ∨ x = .pad := by
  cases x <;> decide

/-- Two ones are the code of a SYNC. -/
theorem eq_sync_of_linecode {x : Symbol} (hfirst : (linecode x)[0]? = some true)
    (hsecond : (linecode x)[1]? = some true) : x = .sync := by
  cases x with
  | sync => rfl
  | zero | pad => exact absurd hfirst (by decide)
  | one => exact absurd hsecond (by decide)

/-- The two bits at an even position are the code of a symbol. -/
theorem encodeDevice_getElem?_pair (d : Device) {i : Nat} (hi : i < 100) :
    ∃ x, (symseq (assemble d))[i]? = some x ∧
      (encodeDevice d)[2 * i]? = (linecode x)[0]? ∧ (encodeDevice d)[2 * i + 1]? = (linecode x)[1]? := by
  have hx := List.getElem?_eq_getElem (l := symseq (assemble d)) (i := i) (by rwa [symseq_length])
  exact ⟨_, hx, encodeDevice_getElem? hx rfl (by decide), encodeDevice_getElem? hx rfl (by decide)⟩

/-- The two bits of a data symbol differ (rule R189 (e)). -/
theorem encodeDevice_data_bits_differ (d : Device) {i : Nat} (hi : i < 91) (hdata : i % 13 ≠ 0) :
    (encodeDevice d)[2 * i]? ≠ (encodeDevice d)[2 * i + 1]? := by
  obtain ⟨x, hx, hfirst, hsecond⟩ := encodeDevice_getElem?_pair d (i := i) (by omega)
  rw [hfirst, hsecond, ne_eq, linecode_bits_eq_iff]
  rintro (rfl | rfl)
  · exact hdata ((symseq_getElem?_eq_sync_iff _ _).mp hx).2
  · exact Nat.not_le.mpr hi ((symseq_getElem?_eq_pad_iff _ _).mp hx).1

/-- The pair 1 1 at an even position is a SYNC, and a SYNC begins a frame (rule R189 (f)). -/
theorem encodeDevice_ones_at_frame_start (d : Device) {i : Nat} (hfirst : (encodeDevice d)[2 * i]? = some true)
    (hsecond : (encodeDevice d)[2 * i + 1]? = some true) : i % 13 = 0 := by
  obtain ⟨hlt, -⟩ := List.getElem?_eq_some_iff.mp hfirst
  rw [encodeDevice_length] at hlt
  obtain ⟨x, hx, hcode0, hcode1⟩ := encodeDevice_getElem?_pair d (i := i) (by omega)
  obtain rfl := eq_sync_of_linecode (hcode0.symm.trans hfirst) (hcode1.symm.trans hsecond)
  exact ((symseq_getElem?_eq_sync_iff _ _).mp hx).2

/-- The first three frames carry the serial words. -/
theorem encodeDevice_take_serial (d : Device) :
    (encodeDevice d).take 78 = expand ([d.serial0, d.serial1, d.serial2].flatMap frame) := by
  rw [encodeDevice, expand_take _ 39]
  rfl

/-- The other four frames carry the command words and their ECC words; the tail follows. -/
theorem encodeDevice_drop_serial (d : Device) :
    (encodeDevice d).drop 78 = expand ([cw1 d, cw2 d, ecc1 (cw1 d), ecc2 (cw2 d)].flatMap frame ++ tail) := by
  rw [encodeDevice_drop d 39]
  rfl

/-- Settles O51: (a) to (f) are read off the symbols, (g) off the words of the frames. -/
theorem encodedSequenceInvariants : Obligations.EncodedSequenceInvariants := by
  refine fun d e => ⟨encodeDevice_length d, count_true_encodeDevice d, fun k => encodeDevice_frame_ends d,
    encodeDevice_drop_frames d, fun i => encodeDevice_data_bits_differ d, fun i => encodeDevice_ones_at_frame_start d,
    fun h0 h1 h2 => ?serial, fun hcontrol => ?control⟩
  case serial => rw [encodeDevice_take_serial, encodeDevice_take_serial, h0, h1, h2]
  case control =>
    -- the command words do not read the serial registers, which `hcontrol` blanks
    have hcw1 : cw1 d = cw1 e := (congrArg cw1 hcontrol :)
    have hcw2 : cw2 d = cw2 e := (congrArg cw2 hcontrol :)
    rw [encodeDevice_drop_serial, encodeDevice_drop_serial, hcw1, hcw2]

end Sys2Proof.Machine

namespace Sys2Proof.Machine

/-! Proofs about error responses: which level stage 1 rejects an update for, and what the rejection leaves of an idle
block. -/

/-! ### What stage 1 rejects -/

/-- A value selected out of range is what validation finds invalid (40_state_update.md rule R103). -/
theorem invalidLevel_eq_some {o : Option Int} {n : Int} (ho : o = some n) (hn : ¬ (0 ≤ n ∧ n ≤ 6)) :
    invalidLevel o = some n := by
  subst ho
  exact if_neg (mt (levelValid_iff n).mp hn)

/-- Stage 1 reports light before it looks at fan and flame (60_exceptions.md rule R228; log 21). -/
theorem firstInvalid_of_light {u : Update} {n : Int} (hl : invalidLevel u.light = some n) :
    firstInvalid u = some (.light, n) := by
  simp [firstInvalid, hl]

theorem firstInvalid_of_fan {u : Update} {n : Int} (hl : InRange u.light) (hf : invalidLevel u.fan = some n) :
    firstInvalid u = some (.fan, n) := by
  simp [firstInvalid, (invalidLevel_eq_none_iff_inRange _).mpr hl, hf]

theorem firstInvalid_of_flame {u : Update} {n : Int} (hl : InRange u.light) (hf : InRange u.fan)
    (hm : invalidLevel u.flame = some n) : firstInvalid u = some (.flame, n) := by
  simp [firstInvalid, (invalidLevel_eq_none_iff_inRange _).mpr hl, (invalidLevel_eq_none_iff_inRange _).mpr hf, hm]

/-! ### What a rejection leaves -/

/-- Of an idle block an error changes the observation only: what `raise` clears is clear already (rules R229 to R231). -/
theorem raise_idle {s : State} (hs : Idle s) (e : Exc) : raise e s = afterError e s := by
  obtain ⟨hbusy, hflight, hpos⟩ := hs
  rw [raise_eq, ← hbusy, ← hflight, ← hpos, afterError]

/-- An UPDATE that stage 1 rejects has the error response and no other effect (rules R103 and R229). -/
theorem exec_update_rejected {u : Update} {s : State} {f : Field} {n : Int} (hs : Idle s)
    (hu : firstInvalid u = some (f, n)) : exec (.update u) s = .next (afterError (.outOfRange f n) s) := by
  calc exec (.update u) s
    _ = runUpdate u s := exec_eq_runUpdate rfl s
    _ = .next (raise (.outOfRange f n) s) := by simp [runUpdate, hs.1, hu]
    _ = .next (afterError (.outOfRange f n) s) := by rw [raise_idle hs]

/-- Settles O20: in each clause stage 1 reports the level out of range, and an idle block takes that error whole. -/
theorem updateWithInvalidLevelIsRejectedWhole : Obligations.UpdateWithInvalidLevelIsRejectedWhole := by
  intro u s n hs hn
  refine ⟨fun light => ?light, fun hl fan => ?fan, fun hl hf flame => ?flame⟩
  case light => exact exec_update_rejected hs (firstInvalid_of_light (invalidLevel_eq_some light hn))
  case fan => exact exec_update_rejected hs (firstInvalid_of_fan hl (invalidLevel_eq_some fan hn))
  case flame => exact exec_update_rejected hs (firstInvalid_of_flame hl hf (invalidLevel_eq_some flame hn))

end Sys2Proof.Machine

namespace Sys2Proof.Machine

/-! Proofs about decoding and encoding: a command word by its select byte, the row of an update, the fields of an encoded
update read back, and line by line what the decoder makes of what the encoder presents. -/

/-! ### A command word by its select byte -/

theorem testBit_select (w : BitVec 22) {k : Nat} (hk : k < 8) :
    (w.extractLsb' 14 8).toNat.testBit k = w.getLsbD (14 + k) := by
  rw [BitVec.testBit_toNat, BitVec.getLsbD_extractLsb', decide_eq_true hk, Bool.true_and]

/-- Format U with the eight select bits as the binary digits of one number, `sel_pilot` first (30_encoding.md rule
R87). -/
theorem decodeUpdate_of_select {w : BitVec 22} {n : Nat} (hn : (w.extractLsb' 14 8).toNat = n) :
    decodeUpdate w =
      { pilot := if n.testBit 7 then some (w.getLsbD 13) else none
        light := if n.testBit 6 then some (levelField w 10) else none
        thermostat := if n.testBit 5 then some (w.getLsbD 9) else none
        power := if n.testBit 4 then some (w.getLsbD 8) else none
        front := if n.testBit 3 then some (w.getLsbD 7) else none
        fan := if n.testBit 2 then some (levelField w 4) else none
        aux := if n.testBit 1 then some (w.getLsbD 3) else none
        flame := if n.testBit 0 then some (levelField w 0) else none } := by
  subst hn
  simp only [testBit_select, Nat.reduceLT, Nat.reduceAdd, decodeUpdate]

theorem isSome_ite_some {α : Type} (b : Bool) (x : α) : (if b then some x else none).isSome = b := by
  cases b <;> rfl

/-- A byte that is neither 0 nor a power of two has two ones. -/
theorem two_le_ones_of_byte : ∀ s : BitVec 8, s.toNat ∉ [0x80, 0x40, 0x20, 0x10, 0x08, 0x04, 0x02, 0x01, 0x00] →
    2 ≤ (s.toNat.testBit 7).toNat + (s.toNat.testBit 6).toNat + (s.toNat.testBit 5).toNat + (s.toNat.testBit 4).toNat +
      (s.toNat.testBit 3).toNat + (s.toNat.testBit 2).toNat + (s.toNat.testBit 1).toNat + (s.toNat.testBit 0).toNat := by
  decide

/-- A command word whose select byte has none of the nine values of a row of its own selects two fields. -/
theorem two_le_selected {w : BitVec 22}
    (h : (w.extractLsb' 14 8).toNat ∉ [0x80, 0x40, 0x20, 0x10, 0x08, 0x04, 0x02, 0x01, 0x00]) :
    2 ≤ (decodeUpdate w).selected := by
  simp only [decodeUpdate_of_select rfl, Update.selected, isSome_ite_some]
  exact two_le_ones_of_byte _ h

theorem fitsLevel_iff (n : Int) : fitsLevel n = true ↔ 0 ≤ n ∧ n ≤ 7 := by simp [fitsLevel]

/-- Three bits carry a level of 0 to 7. -/
theorem fitsLevel_toNat (l : BitVec 3) : fitsLevel (l.toNat : Int) = true := by
  rw [fitsLevel_iff]
  have := l.isLt
  omega

theorem fitsLevel_levelField (w : BitVec 22) (lo : Nat) : fitsLevel (levelField w lo) = true := fitsLevel_toNat _

theorem fitsLevelOpt_ite (b : Bool) (w : BitVec 22) (lo : Nat) :
    fitsLevelOpt (if b then some (levelField w lo) else none) = true := by
  cases b with
  | false => rfl
  | true => exact fitsLevel_levelField w lo

/-- Every command word decodes to a well-formed operation that stands for the update of the word (rules R93 and R98):
the select byte has one of the nine values of the rows of their own, or two ones. -/
theorem decodeU_spec (w : BitVec 22) :
    standsFor (decodeU w) = some (decodeUpdate w) ∧ (decodeU w).wf = true := by
  unfold decodeU
  split
  case h_1 hsel | h_3 hsel | h_4 hsel | h_5 hsel | h_7 hsel | h_9 hsel =>
    exact ⟨by rw [decodeUpdate_of_select hsel]; rfl, rfl⟩
  case h_2 hsel | h_6 hsel | h_8 hsel =>
    exact ⟨by rw [decodeUpdate_of_select hsel]; rfl, fitsLevel_levelField w _⟩
  case h_10 =>
    have hsel : 2 ≤ (decodeUpdate w).selected := two_le_selected (by simp_all)
    have hlight := fitsLevelOpt_ite (w.getLsbD 20) w 10
    have hfan := fitsLevelOpt_ite (w.getLsbD 16) w 4
    have hflame := fitsLevelOpt_ite (w.getLsbD 14) w 0
    refine ⟨rfl, ?_⟩
    simp only [Instr.wf, Bool.and_eq_true, decide_eq_true_iff]
    exact ⟨⟨⟨hlight, hfan⟩, hflame⟩, hsel⟩

/-! ### The row of an update -/

/-- The operation that writes an update (rule R98; log 17): UPDATE from two fields on, else the row of its one field, else
RESEND. -/
def rowOf (u : Update) : Instr :=
  if 2 ≤ u.selected then .update u
  else ((u.pilot.map Instr.setPilot) <|> (u.light.map Instr.setLight) <|> (u.thermostat.map Instr.setThermostat) <|>
    (u.power.map Instr.setPower) <|> (u.front.map Instr.setFront) <|> (u.fan.map Instr.setFan) <|>
    (u.aux.map Instr.setAux) <|> (u.flame.map Instr.setFlame)).getD .resend

/-- Among the well-formed operations an update has one that stands for it. -/
theorem eq_rowOf_of_standsFor {i : Instr} {u : Update} (hwf : i.wf = true) (hi : standsFor i = some u) :
    i = rowOf u := by
  cases i with
  | update u' =>
    obtain rfl := Option.some.inj hi
    simp only [Instr.wf, Bool.and_eq_true, decide_eq_true_iff] at hwf
    obtain ⟨-, hselected⟩ := hwf
    exact (if_pos hselected).symm
  | setPilot | setLight | setThermostat | setPower | setFront | setFan | setAux | setFlame | resend =>
    obtain rfl := Option.some.inj hi
    rfl
  | _ => cases hi

/-- What a command word decodes to depends on its update alone. -/
theorem decodeU_eq_rowOf (w : BitVec 22) : decodeU w = rowOf (decodeUpdate w) := by
  obtain ⟨hstands, hwf⟩ := decodeU_spec w
  exact eq_rowOf_of_standsFor hwf hstands

/-- On its line every command word decodes. -/
theorem decode_u (w : BitVec 22) : decode ⟨.u, w.toNat⟩ = .ok (decodeU w) := by
  simp [decode, Line.width, decodeLine, w.isLt]

/-- Settles O3: the operation decoded stands for the word's update, and so runs the same stages. -/
theorem everyUpdateWordStandsForItsUpdate : Obligations.EveryUpdateWordStandsForItsUpdate :=
  fun u s => ⟨decodeU u, decode_u u, exec_eq_exec_update (decodeU_spec u).1 s⟩

theorem ite_some_congr {α : Type} {a b : Bool} {x y : α} (hab : a = b) (hxy : a = true → x = y) :
    (if a then some x else none) = if b then some y else none := by
  subst hab
  cases a with
  | false => rfl
  | true => rw [hxy rfl]

/-- Settles O5: the two words stand for the same update, and the update determines the row. -/
theorem unselectedDataBitsIgnored : Obligations.UnselectedDataBitsIgnored := by
  intro u v hsel hpilot hlight hthermostat hpower hfront hfan haux hflame
  have hbit (k : Nat) (hk : k < 8) : u.getLsbD (14 + k) = v.getLsbD (14 + k) := by
    rw [← testBit_select u hk, hsel, testBit_select v hk]
  have hupdate : decodeUpdate u = decodeUpdate v := by
    rw [decodeUpdate, decodeUpdate, Update.mk.injEq]
    refine ⟨ite_some_congr (hbit 7 (by decide)) hpilot, ite_some_congr (hbit 6 (by decide)) fun h => ?lightData,
      ite_some_congr (hbit 5 (by decide)) hthermostat, ite_some_congr (hbit 4 (by decide)) hpower,
      ite_some_congr (hbit 3 (by decide)) hfront, ite_some_congr (hbit 2 (by decide)) fun h => ?fanData,
      ite_some_congr (hbit 1 (by decide)) haux, ite_some_congr (hbit 0 (by decide)) fun h => ?flameData⟩
    case lightData => rw [levelField, hlight h, levelField]
    case fanData => rw [levelField, hfan h, levelField]
    case flameData => rw [levelField, hflame h, levelField]
  rw [decode_u, decode_u, decodeU_eq_rowOf, decodeU_eq_rowOf, hupdate]

/-- A level field is 4, 2 and 1 times its bits (rule R87). -/
theorem levelField_eq_bits (w : BitVec 22) (lo : Nat) :
    levelField w lo = 4 * (w.getLsbD (lo + 2)).toInt + 2 * (w.getLsbD (lo + 1)).toInt + (w.getLsbD lo).toInt := by
  have hbits : ∀ l : BitVec 3,
      (l.toNat : Int) = 4 * (l.getLsbD 2).toInt + 2 * (l.getLsbD 1).toInt + (l.getLsbD 0).toInt := by decide
  rw [levelField, hbits]
  simp

/-- Settles O4: the decoder's own table, with each level cut into its bits. -/
theorem updateWordFieldLayout : Obligations.UpdateWordFieldLayout := by
  intro u
  simp only [decodeUpdate, levelField_eq_bits, Nat.reduceAdd, Nat.zero_add, and_self]

/-- Settles O6: each word is computed through the table's reading and the decoder. -/
theorem writtenOutWordsDecode : Obligations.WrittenOutWordsDecode := by
  refine ⟨rfl, rfl, rfl, rfl, rfl, rfl, rfl, rfl, rfl, rfl⟩

/-! ### What the decoder gives -/

theorem decodeRsp_wf {r : BitVec 8} {i : Instr} (h : decodeRsp r = .ok i) : i.wf = true := by
  unfold decodeRsp at h
  split at h
  case h_1 | h_3 =>
    split at h
    · cases h; rfl
    · cases h
  case h_2 => cases h; exact fitsLevel_toNat _
  case h_4 => cases h

theorem decodeSer_wf {w : Nat} {i : Instr} (h : decodeSer w = .ok i) : i.wf = true := by
  unfold decodeSer at h
  split at h
  · cases h; rfl
  · cases h

theorem decodeLc_wf (c : BitVec 2) : (decodeLc c).wf = true := by
  unfold decodeLc
  split <;> rfl

/-- Operands of fixed width are always in order; sequences come out with the length of their line. -/
theorem decodeLine_wf {l : Line} {w : Nat} {i : Instr} (h : decodeLine l w = .ok i) : i.wf = true := by
  cases l with
  | u => cases h; exact (decodeU_spec _).2
  | rsp => exact decodeRsp_wf h
  | ser => exact decodeSer_wf h
  | lc => cases h; exact decodeLc_wf _
  | expand => cases h; simp [Instr.wf, bitsToSymbols_length]
  | pack | emit => cases h; simp [Instr.wf]
  | noLine => cases h
  | _ => cases h; rfl

/-- What decodes has the bits of its line. -/
theorem decode_ok {r : Request} {i : Instr} (h : decode r = .ok i) : decodeLine r.line r.word = .ok i := by
  unfold decode at h
  split at h
  · exact h
  · split at h <;> cases h

/-- Settles O2, line by line. -/
theorem decodeYieldsWellFormed : Obligations.DecodeYieldsWellFormed := fun _ _ h => decodeLine_wf (decode_ok h)

/-! ### An encoded update read back -/

theorem ite_isSome_getD {α : Type} (o : Option α) (x : α) : (if o.isSome then some (o.getD x) else none) = o := by
  cases o <;> rfl

/-- A level of 0 to 7 is read back from its three data bits. -/
theorem levelBits_toNat {o : Option Int} (ho : fitsLevelOpt o = true) : ((levelBits o).toNat : Int) = o.getD 0 := by
  cases o with
  | none => rfl
  | some n =>
    obtain ⟨h0, h7⟩ := (fitsLevel_iff n).mp ho
    simp only [levelBits, Option.getD_some, BitVec.toNat_ofInt]
    omega

theorem encodeUpdate_levels (u : Update) :
    (encodeUpdate u).extractLsb' 10 3 = levelBits u.light ∧ (encodeUpdate u).extractLsb' 4 3 = levelBits u.fan ∧
      (encodeUpdate u).extractLsb' 0 3 = levelBits u.flame := by
  unfold encodeUpdate dataBits
  simp (disch := decide) only [BitVec.extractLsb'_append_eq_of_add_le, BitVec.extractLsb'_append_eq_of_le,
    Nat.reduceSub, BitVec.extractLsb'_eq_self, and_self]

/-- The command word of an update stands for that update, where three bits carry its levels (rule R87). -/
theorem decodeUpdate_encodeUpdate {u : Update} (hlight : fitsLevelOpt u.light = true) (hfan : fitsLevelOpt u.fan = true)
    (hflame : fitsLevelOpt u.flame = true) : decodeUpdate (encodeUpdate u) = u := by
  obtain ⟨hl, hf, hm⟩ := encodeUpdate_levels u
  simp only [decodeUpdate, levelField, hl, hf, hm, levelBits_toNat, hlight, hfan, hflame]
  unfold encodeUpdate selectBits dataBits boolBit
  simp only [BitVec.getLsbD_append, BitVec.getLsbD_ofBool]
  simp only [Nat.reduceAdd, Nat.reduceSub, Nat.reduceLT, ↓reduceIte, decide_true, Bool.true_and, ite_isSome_getD]

/-! ### What is presented is read back -/

theorem decode_of_fits {r : Request} (h : r.word < 2 ^ r.line.width) : decode r = decodeLine r.line r.word := if_pos h

/-- What the encoder presents fits its line. -/
theorem encode_fits : ∀ i : Instr, Laws.FitsItsLine.Statement i
  | .update u => Laws.FitsItsLine.update u
  | .setPilot v => Laws.FitsItsLine.setPilot v
  | .setLight n => Laws.FitsItsLine.setLight n
  | .setThermostat v => Laws.FitsItsLine.setThermostat v
  | .setPower v => Laws.FitsItsLine.setPower v
  | .setFront v => Laws.FitsItsLine.setFront v
  | .setFan n => Laws.FitsItsLine.setFan n
  | .setAux v => Laws.FitsItsLine.setAux v
  | .setFlame n => Laws.FitsItsLine.setFlame n
  | .resend => Laws.FitsItsLine.resend
  | .reset w0 w1 w2 => Laws.FitsItsLine.reset w0 w1 w2
  | .get => Laws.FitsItsLine.get
  | .rspOk => Laws.FitsItsLine.rspOk
  | .rspOutOfRange f n => Laws.FitsItsLine.rspOutOfRange f n
  | .rspTransportFailure => Laws.FitsItsLine.rspTransportFailure
  | .ser k => Laws.FitsItsLine.ser k
  | .cw1 => Laws.FitsItsLine.cw1
  | .cw2 => Laws.FitsItsLine.cw2
  | .ecc1High hi lo => Laws.FitsItsLine.ecc1High hi lo
  | .ecc1Low hi lo => Laws.FitsItsLine.ecc1Low hi lo
  | .ecc2High hi lo => Laws.FitsItsLine.ecc2High hi lo
  | .ecc2Low hi lo => Laws.FitsItsLine.ecc2Low hi lo
  | .ecc1 w => Laws.FitsItsLine.ecc1 w
  | .ecc2 w => Laws.FitsItsLine.ecc2 w
  | .assemble => Laws.FitsItsLine.assemble
  | .parity w => Laws.FitsItsLine.parity w
  | .frame w => Laws.FitsItsLine.frame w
  | .tail => Laws.FitsItsLine.tail
  | .symseq p => Laws.FitsItsLine.symseq p
  | .linecodeSync => Laws.FitsItsLine.linecodeSync
  | .linecodeZero => Laws.FitsItsLine.linecodeZero
  | .linecodeOne => Laws.FitsItsLine.linecodeOne
  | .linecodePad => Laws.FitsItsLine.linecodePad
  | .expand q => Laws.FitsItsLine.expand q
  | .pack b => Laws.FitsItsLine.pack b
  | .encode => Laws.FitsItsLine.encode
  | .configure => Laws.FitsItsLine.configure
  | .emit b => Laws.FitsItsLine.emit b

theorem ofNat_toNat_self {n : Nat} (x : BitVec n) : BitVec.ofNat n x.toNat = x := BitVec.eq_of_toNat_eq (by simp)

/-- An update form is presented as the word of the update it stands for. -/
theorem encode_of_standsFor {i : Instr} {u : Update} (hi : standsFor i = some u) : encode i = onU u := by
  cases i with
  | update | setPilot | setLight | setThermostat | setPower | setFront | setFan | setAux | setFlame | resend =>
    obtain rfl := Option.some.inj hi
    rfl
  | _ => cases hi

/-- A well-formed update form stands for an update whose levels three bits carry. -/
theorem fitsLevelOpt_of_standsFor {i : Instr} {u : Update} (hwf : i.wf = true) (hi : standsFor i = some u) :
    fitsLevelOpt u.light = true ∧ fitsLevelOpt u.fan = true ∧ fitsLevelOpt u.flame = true := by
  cases i with
  | update u' =>
    obtain rfl := Option.some.inj hi
    simp only [Instr.wf, Bool.and_eq_true] at hwf
    obtain ⟨⟨⟨hlight, hfan⟩, hflame⟩, -⟩ := hwf
    exact ⟨hlight, hfan, hflame⟩
  | setLight => obtain rfl := Option.some.inj hi; exact ⟨hwf, rfl, rfl⟩
  | setFan => obtain rfl := Option.some.inj hi; exact ⟨rfl, hwf, rfl⟩
  | setFlame => obtain rfl := Option.some.inj hi; exact ⟨rfl, rfl, hwf⟩
  | setPilot | setThermostat | setPower | setFront | setAux | resend =>
    obtain rfl := Option.some.inj hi
    exact ⟨rfl, rfl, rfl⟩
  | _ => cases hi

/-- The update forms are read back: the word stands for the same update, and that update has one row. -/
theorem decode_encode_of_standsFor {i : Instr} {u : Update} (hwf : i.wf = true) (hi : standsFor i = some u) :
    decode (encode i) = .ok i := by
  obtain ⟨hlight, hfan, hflame⟩ := fitsLevelOpt_of_standsFor hwf hi
  calc decode (encode i)
    _ = decode (onU u) := by rw [encode_of_standsFor hi]
    _ = .ok (decodeU (encodeUpdate u)) := decode_u _
    _ = .ok (rowOf u) := by rw [decodeU_eq_rowOf, decodeUpdate_encodeUpdate hlight hfan hflame]
    _ = .ok i := by rw [← eq_rowOf_of_standsFor hwf hi]

/-- Two nibbles on a line are cut apart again. -/
theorem nibbles_of_byte (hi lo : Nibble) : upperNibble (hi ++ lo).toNat = hi ∧ lowerNibble (hi ++ lo).toNat = lo := by
  rw [upperNibble, lowerNibble, ofNat_toNat_self]
  exact ⟨BitVec.extractLsb'_append_eq_left, BitVec.extractLsb'_append_eq_right⟩

theorem decodeLine_rst (w0 w1 w2 : Word) : decodeLine .rst (w0 ++ w1 ++ w2).toNat = .ok (.reset w0 w1 w2) := by
  rw [decodeLine, ofNat_toNat_self]
  simp (disch := decide) only [BitVec.extractLsb'_append_eq_of_add_le, BitVec.extractLsb'_append_eq_of_le,
    Nat.reduceSub, BitVec.extractLsb'_eq_self]

theorem decodePacket_append (p : Packet) :
    decodePacket (p.ser0 ++ p.ser1 ++ p.ser2 ++ p.cmd1 ++ p.cmd2 ++ p.ecc1 ++ p.ecc2) = p := by
  unfold decodePacket
  simp (disch := decide) only [BitVec.extractLsb'_append_eq_of_add_le, BitVec.extractLsb'_append_eq_of_le,
    Nat.reduceSub, BitVec.extractLsb'_eq_self]

/-- A rejected value of 0 to 7 is read back from the last three bits of its response word, and its field by its number
(rule R88). -/
theorem decodeRsp_outOfRange (f : Field) {n : Int} (hn : fitsLevel n = true) :
    decodeRsp (0b01#2 ++ f.index ++ BitVec.ofInt 3 n) = .ok (.rspOutOfRange f n) := by
  have hvalue : ((BitVec.ofInt 3 n).toNat : Int) = n := levelBits_toNat (o := some n) hn
  unfold decodeRsp
  simp (disch := decide) only [BitVec.extractLsb'_append_eq_of_add_le, BitVec.extractLsb'_append_eq_of_le,
    Nat.reduceSub, BitVec.extractLsb'_eq_self, hvalue, ofIndex_index]
  rfl

theorem natToBits_200 {b : Bits} (hb : b.length = 200) : natToBits 200 (bitsToNat b) = b := by
  rw [← hb, natToBits_bitsToNat]

/-- Settles O1: the update forms by the update they stand for, every other operation by the operands its line carries. -/
theorem encodeDecodeRoundTrip : Obligations.EncodeDecodeRoundTrip := by
  intro i hwf
  have hline := decode_of_fits (encode_fits i hwf)
  cases i with
  | update | setPilot | setLight | setThermostat | setPower | setFront | setFan | setAux | setFlame | resend =>
    exact decode_encode_of_standsFor hwf rfl
  | reset w0 w1 w2 => exact hline.trans (decodeLine_rst w0 w1 w2)
  | rspOutOfRange f n => rw [hline]; exact (congrArg decodeRsp (ofNat_toNat_self _)).trans (decodeRsp_outOfRange f hwf)
  | ser k => rw [hline]; exact dif_pos k.isLt
  | ecc1High hi lo | ecc1Low hi lo | ecc2High hi lo | ecc2Low hi lo =>
    obtain ⟨hupper, hlower⟩ := nibbles_of_byte hi lo
    rw [hline]
    simp only [encode, onNibbles, decodeLine, hupper, hlower]
  | ecc1 | ecc2 | parity | frame => rw [hline]; simp only [encode, decodeLine, ofNat_toNat_self]
  | symseq p => rw [hline]; simp only [encode, decodeLine, ofNat_toNat_self, decodePacket_append]
  | expand q =>
    have hlength : (symbolsToBits q).length = 200 := by
      have hq : q.length = 100 := by simpa [Instr.wf] using hwf
      rw [symbolsToBits_length, hq]
    rw [hline]
    simp only [encode, decodeLine, natToBits_200 hlength, bitsToSymbols_symbolsToBits]
  | pack b | emit b =>
    have hlength : b.length = 200 := by simpa [Instr.wf] using hwf
    rw [hline]
    simp only [encode, decodeLine, natToBits_200 hlength]
  | _ => exact hline.trans rfl

end Sys2Proof.Machine

namespace Sys2Proof.Machine

/-! Proofs about the operations that only answer, on an idle block, and about the words of responses and snapshots. -/

/-! ### Response words -/

/-- The three parts of an error word: status, field, value (30_encoding.md rule R88). -/
theorem response_word_parts (status : BitVec 2) (field value : BitVec 3) :
    (status ++ field ++ value).extractLsb' 6 2 = status ∧ (status ++ field ++ value).extractLsb' 3 3 = field ∧
      (status ++ field ++ value).extractLsb' 0 3 = value := by
  simp (disch := decide) only [BitVec.extractLsb'_append_eq_of_add_le, BitVec.extractLsb'_append_eq_of_le,
    Nat.reduceSub, BitVec.extractLsb'_eq_self, and_self]

/-- A response has one of three status codes. -/
theorem response_status {p : Response} {r : BitVec 8} (h : p.word = some r) :
    r.extractLsb' 6 2 = 0b00#2 ∨ r.extractLsb' 6 2 = 0b01#2 ∨ r.extractLsb' 6 2 = 0b10#2 := by
  cases p with
  | ok => cases h; exact .inl rfl
  | error e =>
    cases e with
    | transportFailure => cases h; exact .inr (.inr rfl)
    | outOfRange f n =>
      simp only [Response.word, Option.ite_none_right_eq_some, Option.some.injEq] at h
      obtain ⟨-, rfl⟩ := h
      exact .inr (.inl (response_word_parts _ _ _).1)

theorem outOfRange_word (f : Field) (v : BitVec 3) :
    Response.word (.error (.outOfRange f (v.toNat : Int))) = some (0b01#2 ++ f.index ++ v) := by
  have hv : 0 ≤ (v.toNat : Int) ∧ (v.toNat : Int) ≤ 7 := (fitsLevel_iff _).mp (fitsLevel_toNat v)
  rw [Response.word, if_pos hv, BitVec.ofInt_natCast, ofNat_toNat_self]

/-- Settles O29: the words are those of `Response.word`, and their parts are cut off again. -/
theorem responseWordFormat : Obligations.ResponseWordFormat := by
  refine ⟨rfl, rfl, fun f v => ⟨_, outOfRange_word f v, response_word_parts _ _ _⟩, fun p r hr => ?status⟩
  obtain h | h | h := response_status hr
  all_goals rw [h]; decide

/-! ### Snapshots -/

theorem snapshotWord_flags (d : Device) :
    d.snapshotWord.getLsbD 40 = d.pilot ∧ d.snapshotWord.getLsbD 36 = d.thermostat ∧
      d.snapshotWord.getLsbD 35 = d.power ∧ d.snapshotWord.getLsbD 34 = d.front ∧ d.snapshotWord.getLsbD 30 = d.aux := by
  unfold Device.snapshotWord bit
  simp only [BitVec.getLsbD_append, BitVec.getLsbD_ofBool]
  simp

theorem snapshotWord_words (d : Device) :
    d.snapshotWord.extractLsb' 37 3 = d.light ∧ d.snapshotWord.extractLsb' 31 3 = d.fan ∧
      d.snapshotWord.extractLsb' 27 3 = d.flame ∧ d.snapshotWord.extractLsb' 18 9 = d.serial0 ∧
      d.snapshotWord.extractLsb' 9 9 = d.serial1 ∧ d.snapshotWord.extractLsb' 0 9 = d.serial2 := by
  unfold Device.snapshotWord bin3
  simp (disch := decide) only [BitVec.extractLsb'_append_eq_of_add_le, BitVec.extractLsb'_append_eq_of_le,
    Nat.reduceSub, BitVec.extractLsb'_eq_self, and_self]

/-- Registers narrower than nine bits are read zero-extended, with their number unchanged (10_state.md rule R20). -/
theorem read_toNat (d : Device) : ((List.finRange 11).map fun i => (d.read i).toNat) =
    [d.pilot.toNat, d.light.toNat, d.thermostat.toNat, d.power.toNat, d.front.toNat, d.fan.toNat, d.aux.toNat,
     d.flame.toNat, d.serial0.toNat, d.serial1.toNat, d.serial2.toNat] := by
  have hflag (b : Bool) : ((bit b).setWidth 9).toNat = b.toNat := by cases b <;> rfl
  have hlevel (l : Level) : (l.setWidth 9).toNat = l.toNat := BitVec.toNat_setWidth_of_le (by decide)
  simp [List.finRange_succ, Device.read, hflag, hlevel]

/-- Settles O27: the snapshot is cut at its fields' places, and the registers are read in the order of their index. -/
theorem snapshotAndRegisterLayout : Obligations.SnapshotAndRegisterLayout := by
  intro d
  obtain ⟨hpilot, hthermostat, hpower, hfront, haux⟩ := snapshotWord_flags d
  obtain ⟨hlight, hfan, hflame, hserial0, hserial1, hserial2⟩ := snapshotWord_words d
  exact ⟨hpilot, hlight, hthermostat, hpower, hfront, hfan, haux, hflame, hserial0, hserial1, hserial2, read_toNat d⟩

/-! ### Responses and transport calls on an idle block -/

/-- Of an idle block a response changes the observation only. -/
theorem respond_idle {s : State} (hs : Idle s) (r : Response) :
    respond r s = { s with obs := s.obs ++ [.response r] } := by
  obtain ⟨hbusy, hflight, hpos⟩ := hs
  rw [respond_eq, ← hbusy, ← hflight, ← hpos]

/-- Settles O28: an idle block does not hold a response row, and gives the response. -/
theorem responsesReachTheHost : Obligations.ResponsesReachTheHost := by
  intro s f n hs
  simp [exec, execRspOk, execRspOutOfRange, execRspTransportFailure, hs.1, respond_idle hs, raise_idle hs]

/-- Settles O56: a block that is not busy does not hold CONFIGURE; writing the field again what it holds changes
nothing. -/
theorem configureHandsOverTheConstants : Obligations.ConfigureHandsOverTheConstants := by
  intro s hb
  have hexec : exec .configure s = .next { s with configured := some ⟨314973000, .askOok, 2400⟩ } := by
    simp [exec, execConfigure, hb, setConfigured, Config.transport]
  refine ⟨hexec, fun hc => ?_⟩
  rw [hexec, ← hc]

/-- EMIT of a block that is not busy is not held. -/
theorem exec_emit_idle {s : State} (b : Bits) (hb : s.busy = false) : exec (.emit b) s = .next (emitThen .emit b s) := by
  simp [exec, execEmit, hb]

/-- Settles O57: with an answer at hand `finish` sets the idle block idle again. -/
theorem emitHandsOverOneCopy : Obligations.EmitHandsOverOneCopy := by
  intro s b as ⟨hbusy, hflight, hpos⟩
  rw [exec_emit_idle b hbusy]
  refine ⟨fun ha => ?done, fun ha => ?failed, fun ha => ?waiting⟩
  case done | failed =>
    rw [emitThen_answered _ _ ha, finish_emit_eq, handOver_eq]
    simp [setAnswers, hbusy, hflight, hpos]
  case waiting => rw [emitThen_waiting _ _ ha, handOver_eq]

end Sys2Proof.Machine

namespace Sys2Proof.Machine

/-! Proofs about the step and what every step keeps: which request is accepted, what becomes of the queue, the observation
and the registers, and the invariant, kept by every step and enough for every run to go on. -/

/-! ### Which request is accepted -/

/-- What is accepted and what is left are the requests there were. -/
theorem perm_of_pick {busy : Bool} : ∀ {rs rest : List Request} {r : Request},
    pick busy rs = some (r, rest) → rs.Perm (r :: rest)
  | [], _, _, h => by simp at h
  | x :: xs, rest, r, h => by
    rw [pick] at h
    split at h
    · cases hp : pick busy xs with
      | none => simp [hp] at h
      | some p =>
        obtain ⟨y, ys⟩ := p
        obtain ⟨rfl, rfl⟩ : y = r ∧ x :: ys = rest := by simpa [hp] using h
        exact ((perm_of_pick hp).cons x).trans (.swap y x ys)
    · obtain ⟨rfl, rfl⟩ : x = r ∧ xs = rest := by simpa using h
      exact .refl _

/-- While busy the held requests before the first that is not are passed over, and keep their places (20_memory.md rule
R63; log 13). -/
theorem pick_busy_append {held : List Request} (hheld : ∀ r ∈ held, heldLine r.line = true) {r : Request}
    (hr : heldLine r.line = false) (rest : List Request) : pick true (held ++ r :: rest) = some (r, held ++ rest) := by
  induction held with
  | nil => simp [pick, hr]
  | cons x xs ih =>
    obtain ⟨hx, hxs⟩ := List.forall_mem_cons.mp hheld
    simp [pick, hx, ih hxs]

theorem pick_busy_held {rs : List Request} (hheld : ∀ r ∈ rs, heldLine r.line = true) : pick true rs = none := by
  induction rs with
  | nil => rfl
  | cons x xs ih =>
    obtain ⟨hx, hxs⟩ := List.forall_mem_cons.mp hheld
    simp [pick, hx, ih hxs]

/-- The step of a request that is accepted and decodes. -/
theorem step_of_pick {s : State} {r : Request} {rest : List Request} {i : Instr}
    (hp : pick s.busy s.requests = some (r, rest)) (hd : decode r = .ok i) : step s = exec i (setRequests rest s) := by
  simp [step, hp, hd]

/-- The step where nothing is accepted. -/
theorem step_of_pick_none {s : State} (hp : pick s.busy s.requests = none) :
    step s = .next (if s.busy then transportStep s else s) := by
  simp [step, hp]

/-- Settles O8: of an idle block the oldest request is the one accepted. -/
theorem stepRunsTheAcceptedOperation : Obligations.StepRunsTheAcceptedOperation := by
  refine ⟨fun s r rest i => step_of_pick, fun s r rest i hb hr => step_of_pick ?oldest, fun s hb hr => ?nothing⟩
  case oldest => rw [hb, hr, pick_idle]
  case nothing => rw [step_of_pick_none (by rw [hr, pick_nil]), hb]; rfl

/-! ### What is held -/

/-- A held operation given to a busy block changes nothing (rule R63). -/
theorem exec_held {i : Instr} {s : State} (hb : s.busy = true) (hi : heldInstr i = true) : exec i s = .next s := by
  cases i with
  | update | setPilot | setLight | setThermostat | setPower | setFront | setFan | setAux | setFlame | resend =>
    rw [exec_eq_runUpdate rfl, runUpdate, whenIdle_busy _ hb]
  | reset => exact exec_reset_busy _ _ _ hb
  | rspOk => rw [exec, execRspOk, whenIdle_busy _ hb]
  | rspOutOfRange => rw [exec, execRspOutOfRange, whenIdle_busy _ hb]
  | rspTransportFailure => rw [exec, execRspTransportFailure, whenIdle_busy _ hb]
  | configure => rw [exec, execConfigure, whenIdle_busy _ hb]
  | emit => rw [exec, execEmit, whenIdle_busy _ hb]
  | _ => cases hi

@[simp] theorem finish_requests (c : Caller) (a : Answer) (s : State) : (finish c a s).requests = s.requests := by
  obtain ⟨-, -, -, hrequests, -⟩ := finish_frame c a s
  exact hrequests

@[simp] theorem sendBit_requests (f : Flight) (s : State) : (sendBit f s).requests = s.requests := by
  obtain ⟨-, h⟩ | ⟨-, -, h⟩ | ⟨-, -, h⟩ := sendBit_cases f s
  all_goals rw [h]

/-- The transport takes no request. -/
@[simp] theorem transportStep_requests (s : State) : (transportStep s).requests = s.requests := by
  cases hf : s.flight with
  | none => rw [transportStep_none hf]
  | some f =>
    obtain ⟨as, -, h⟩ | ⟨as, -, -, -, h⟩ | h := transportStep_cases hf
    all_goals rw [h]; simp

/-- Settles O9: `exec` passes a held operation by, and `pick` leaves it in the queue. -/
theorem busyHoldsOperations : Obligations.BusyHoldsOperations := by
  refine ⟨fun i s => exec_held, fun s hb hheld => ⟨?step, transportStep_requests s⟩⟩
  case step =>
    rw [step_of_pick_none (by rw [hb]; exact pick_busy_held hheld), hb]
    rfl

/-- Settles O10: the GET is what `pick` accepts, and GET answers at any time. -/
theorem getAnsweredWhileBusy : Obligations.GetAnsweredWhileBusy := by
  intro s held rest hb hheld hr
  have hpick : pick s.busy s.requests = some (⟨.snap, 0⟩, held ++ rest) := by
    rw [hb, hr]
    exact pick_busy_append hheld rfl rest
  calc step s
    _ = exec .get (setRequests (held ++ rest) s) := step_of_pick hpick rfl
    _ = .next { s with requests := held ++ rest, obs := s.obs ++ [.snapshot s.dev] } := exec_get _

/-! ### What an operation leaves of the registers, the queue and the observation -/

@[simp] theorem emitThen_last (c : Caller) (b : Bits) (s : State) : (emitThen c b s).last = s.last := by
  obtain ⟨-, he⟩ | ⟨a, as, -, he⟩ := emitThen_cases c b s
  · rw [he, handOver_eq]
  · obtain ⟨-, -, hlast, -⟩ := finish_frame c a (setAnswers as (handOver c b s))
    rw [he, hlast, setAnswers_last, handOver_eq]

@[simp] theorem emitThen_requests (c : Caller) (b : Bits) (s : State) : (emitThen c b s).requests = s.requests := by
  obtain ⟨-, he⟩ | ⟨a, as, -, he⟩ := emitThen_cases c b s
  · rw [he, handOver_eq]
  · rw [he, finish_requests, setAnswers_requests, handOver_eq]

/-- No operation looks at the queue. -/
theorem Effect.requests_eq {i : Instr} {s t : State} (h : Effect i s t) : t.requests = s.requests := by
  cases h with
  | emitted | updated => simp
  | _ => rfl

/-- Off the update and the reset line an operation writes neither a register nor `LAST`. -/
theorem Effect.registers_kept {i : Instr} {s t : State} (h : Effect i s t) (hu : (encode i).line ≠ .u)
    (hr : (encode i).line ≠ .rst) : t.dev = s.dev ∧ t.last = s.last := by
  cases h with
  | held | returned | snapshot | responded | configured => exact ⟨rfl, rfl⟩
  | emitted => simp
  | rejected _ _ _ hi | updated _ _ hi => exact absurd hi hu
  | reset w0 w1 w2 _ hi => subst hi; exact absurd rfl hr

/-- Settles O15. -/
theorem registersWrittenOnlyByUpdateAndReset : Obligations.RegistersWrittenOnlyByUpdateAndReset :=
  fun _ _ _ hu hr h => (effect_of_exec h).registers_kept hu hr

@[simp] theorem emitsOf_append (a b : List Event) : emitsOf (a ++ b) = emitsOf a ++ emitsOf b := List.filterMap_append

@[simp] theorem emitsOf_response (r : Response) : emitsOf [.response r] = [] := rfl

@[simp] theorem emitsOf_snapshot (d : Device) : emitsOf [.snapshot d] = [] := rfl

@[simp] theorem emitsOf_emit (b : Bits) (n : Nat) : emitsOf [.emit b n] = [b] := rfl

/-- The end of a transmission hands nothing over. -/
theorem emitsOf_finish (c : Caller) (a : Answer) (s : State) : emitsOf (finish c a s).obs = emitsOf s.obs := by
  cases c with
  | update => simp [finish_update_eq]
  | emit => cases a <;> simp [finish_emit_eq]

/-- Answered or not, one copy is handed over (45_emit_transport.md rule R202). -/
theorem emitsOf_emitThen (c : Caller) (b : Bits) (s : State) : emitsOf (emitThen c b s).obs = emitsOf s.obs ++ [b] := by
  obtain ⟨-, he⟩ | ⟨a, as, -, he⟩ := emitThen_cases c b s
  · simp [he, handOver_eq]
  · simp [he, emitsOf_finish, handOver_eq]

/-- What an operation can add to the emits: nothing; on the update line the encoding of the registers it leaves; or it
is EMIT. -/
theorem Effect.emits_cases {i : Instr} {s t : State} (h : Effect i s t) :
    emitsOf t.obs = emitsOf s.obs ∨
    ((encode i).line = .u ∧ emitsOf t.obs = emitsOf s.obs ++ [encodeDevice t.dev]) ∨ (encode i).line = .emit := by
  cases h with
  | held | returned | reset | configured => exact .inl rfl
  | snapshot => exact .inl (by simp)
  | responded | rejected => exact .inl (by simp [respond_eq, raise_eq])
  | updated u _ hi => exact .inr (.inl ⟨hi, by simp [emitsOf_emitThen]⟩)
  | emitted b _ hi => exact .inr (.inr (by rw [hi]; rfl))

/-- Settles O16. -/
theorem emitsComeFromUpdateAndEmit : Obligations.EmitsComeFromUpdateAndEmit := by
  intro i s t h
  obtain hnone | ⟨hline, hone⟩ | hline := (effect_of_exec h).emits_cases
  · exact ⟨fun _ _ => hnone, fun _ => .inl hnone⟩
  · exact ⟨fun hu _ => absurd hline hu, fun _ => .inr hone⟩
  · exact ⟨fun _ he => absurd hline he, fun hu => by rw [hline] at hu; cases hu⟩

/-! ### The invariant -/

/-- The registers and `LAST` alone: valid levels (10_state.md rule R29), and `LAST` the encoding of the registers
(rule R33). -/
def Coded (s : State) : Prop := s.dev.Valid ∧ ∀ b ∈ s.last, b = encodeDevice s.dev

theorem Inv.coded {s : State} (h : Inv s) : Coded s := by
  obtain ⟨hvalid, hlast, -⟩ := h
  exact ⟨hvalid, hlast⟩

theorem inv_of_idle {s : State} (hc : Coded s) (hs : Idle s) : Inv s := by
  obtain ⟨hbusy, hflight, hpos⟩ := hs
  obtain ⟨hvalid, hlast⟩ := hc
  exact ⟨hvalid, hlast, by rw [hbusy, hflight]; rfl, fun _ => hpos, by simp [hflight]⟩

theorem inv_of_flight {s : State} {f : Flight} (hc : Coded s) (hb : s.busy = true) (hf : s.flight = some f)
    (hpos : s.pos ≤ 200) (hrep : f.rep ≤ 4) (hbits : f.bits.length = 200)
    (hcaller : f.caller = .update → s.last = some f.bits) : Inv s := by
  obtain ⟨hvalid, hlast⟩ := hc
  refine ⟨hvalid, hlast, by rw [hb, hf]; rfl, fun hn => ?_, fun g hg => ?_⟩
  · rw [hf] at hn; cases hn
  · obtain rfl : f = g := by simpa [hf] using hg
    exact ⟨hpos, hrep, hbits, hcaller⟩

/-- The end of a transmission leaves an idle block (rules R34 and R36). -/
theorem inv_finish {s : State} (c : Caller) (a : Answer) (hc : Coded s) : Inv (finish c a s) := by
  obtain ⟨hidle, hdev, hlast, -⟩ := finish_frame c a s
  refine inv_of_idle ?_ hidle
  rwa [Coded, hdev, hlast]

/-- A sequence of 200 bits handed over, which is `LAST` if an UPDATE sends it (20_memory.md rule R65). -/
theorem inv_emitThen {s : State} {c : Caller} {b : Bits} (hc : Coded s) (hb : b.length = 200)
    (hcaller : c = .update → s.last = some b) : Inv (emitThen c b s) := by
  obtain ⟨-, he⟩ | ⟨a, as, -, he⟩ := emitThen_cases c b s
  · rw [he]
    exact inv_of_flight hc rfl rfl (Nat.zero_le _) (Nat.zero_le _) hb hcaller
  · rw [he]
    exact inv_finish c a hc

/-- What a step of the bits keeps: `pos` within 0 to 200, the repetition within 0 to 4, the sequence as it is. -/
theorem inv_sendBit {s : State} {f : Flight} (h : Inv s) (hf : s.flight = some f) : Inv (sendBit f s) := by
  have hc := h.coded
  obtain ⟨-, -, hbusy, -, hflight⟩ := h
  obtain ⟨hpos, hrep, hbits, hcaller⟩ := hflight f hf
  have hb : s.busy = true := by simpa [hf] using hbusy
  obtain ⟨hlt, he⟩ | ⟨-, hlt, he⟩ | ⟨-, -, he⟩ := sendBit_cases f s
  · rw [he]
    exact inv_of_flight hc hb hf hlt hrep hbits hcaller
  · rw [he]
    exact inv_of_flight (f := { f with rep := f.rep + 1 }) hc hb rfl (Nat.zero_le _) hlt hbits hcaller
  · rw [he]
    exact inv_of_flight hc hb hf hpos hrep hbits hcaller

theorem inv_transportStep {s : State} (h : Inv s) : Inv (transportStep s) := by
  cases hf : s.flight with
  | none => rwa [transportStep_none hf]
  | some f =>
    obtain ⟨as, -, he⟩ | ⟨as, -, -, -, he⟩ | he := transportStep_cases hf
    · rw [he]; exact inv_finish _ _ h.coded
    · rw [he]; exact inv_finish _ _ h.coded
    · rw [he]; exact inv_sendBit h hf

theorem valid_afterReset (w0 w1 w2 : Word) : (Device.afterReset w0 w1 w2).Valid :=
  ⟨Nat.zero_le _, Nat.zero_le _, Nat.zero_le _⟩

/-- A well-formed operation keeps the invariant, whatever effect it has. -/
theorem Effect.inv {i : Instr} {s t : State} (h : Effect i s t) (hwf : i.wf = true) (hs : Inv s) : Inv t := by
  cases h with
  | held | returned | snapshot | configured => exact hs
  | responded _ hb | rejected _ _ hb => exact inv_of_idle hs.coded ⟨rfl, rfl, rfl⟩
  | updated u hb _ hu hv =>
    exact inv_emitThen ⟨hv, fun b hb => (Option.some.inj hb).symm⟩ (encodeDevice_length _) fun _ => rfl
  | reset w0 w1 w2 hb =>
    exact inv_of_idle ⟨valid_afterReset w0 w1 w2, fun b hb => nomatch hb⟩ ⟨rfl, rfl, rfl⟩
  | emitted b _ hi =>
    subst hi
    exact inv_emitThen hs.coded (by simpa [Instr.wf] using hwf) (fun hc => nomatch hc)

/-- Settles O11: a step is an operation, well-formed because it was decoded, or the transport's, or none. -/
theorem stepKeepsInvariant : Obligations.StepKeepsInvariant := by
  intro s t hs h
  obtain ⟨r, rest, i, -, hd, he⟩ | ⟨-, rfl⟩ := step_next h
  · have hrest : Inv (setRequests rest s) := hs
    exact (effect_of_exec he).inv (decodeYieldsWellFormed r i hd) hrest
  · split
    · exact inv_transportStep hs
    · exact hs

/-- Settles O12: after a reset the block is idle, its levels are 0 and `LAST` is none. -/
theorem resetSatisfiesInvariant : Obligations.ResetSatisfiesInvariant := by
  have hreset (w0 w1 w2 : Word) : Inv (State.resetWith w0 w1 w2) :=
    inv_of_idle ⟨valid_afterReset w0 w1 w2, fun b hb => nomatch hb⟩ ⟨rfl, rfl, rfl⟩
  exact ⟨hreset, hreset _ _ _⟩

/-- Settles O25, field by field. -/
theorem resetStateHoldsTheResetValues : Obligations.ResetStateHoldsTheResetValues :=
  ⟨rfl, rfl, rfl, rfl, rfl, rfl, rfl, rfl, rfl, rfl⟩

/-! ### Runs go on -/

theorem whenIdle_goes_on (s : State) (f : State → State) : ∃ t, whenIdle s (fun s => .next (f s)) = .next t := by
  cases hb : s.busy with
  | true => exact ⟨s, whenIdle_busy _ hb⟩
  | false => exact ⟨f s, whenIdle_idle _ hb⟩

/-- On valid levels an UPDATE is held, rejected, or carried out: the commit leaves valid levels (40_state_update.md rule
R104), so the encoding is never refused. -/
theorem runUpdate_goes_on (u : Update) {s : State} (hv : s.dev.Valid) : ∃ t, runUpdate u s = .next t := by
  cases hb : s.busy with
  | true => exact ⟨s, whenIdle_busy _ hb⟩
  | false =>
    cases hu : firstInvalid u with
    | some p => exact ⟨_, by simp only [runUpdate, whenIdle_idle _ hb, hu]; rfl⟩
    | none =>
      have hbad := (badLevel_eq_none_iff _).mpr (commit_valid u s.dev hu hv)
      exact ⟨_, by simp only [runUpdate, whenIdle_idle _ hb, hu, hbad]; rfl⟩

/-- On valid levels no operation is refused (41_packet_encoder.md rule R127), and none faults (60_exceptions.md rule
R220). -/
theorem exec_goes_on (i : Instr) {s : State} (hv : s.dev.Valid) : ∃ t, exec i s = .next t := by
  have ⟨hlight, hfan, hflame⟩ := hv
  cases i with
  | update | setPilot | setLight | setThermostat | setPower | setFront | setFan | setAux | setFlame | resend =>
    rw [exec_eq_runUpdate rfl]
    exact runUpdate_goes_on _ hv
  | reset | rspOk | rspOutOfRange | rspTransportFailure | configure | emit => exact whenIdle_goes_on s _
  | cw1 => exact ⟨_, exec_cw1 hlight⟩
  | cw2 => exact ⟨_, exec_cw2 hfan hflame⟩
  | assemble => exact ⟨_, exec_assemble hv⟩
  | encode => exact ⟨_, exec_encode hv⟩
  | _ => exact ⟨_, rfl⟩

/-- From a state with the invariant and decodable requests a step goes on, and presents nothing new. -/
theorem step_goes_on {s : State} (hs : Inv s) (hd : ∀ r ∈ s.requests, ∃ i, decode r = .ok i) :
    ∃ t, step s = .next t ∧ ∀ r ∈ t.requests, r ∈ s.requests := by
  cases hp : pick s.busy s.requests with
  | none =>
    refine ⟨_, step_of_pick_none hp, ?_⟩
    split <;> simp
  | some p =>
    obtain ⟨r, rest⟩ := p
    have hperm := perm_of_pick hp
    obtain ⟨i, hi⟩ := hd r (hperm.mem_iff.mpr List.mem_cons_self)
    obtain ⟨t, ht⟩ := exec_goes_on i (s := setRequests rest s) hs.coded.1
    refine ⟨t, (step_of_pick hp hi).trans ht, fun x hx => ?_⟩
    rw [(effect_of_exec ht).requests_eq] at hx
    exact hperm.mem_iff.mpr (List.mem_cons_of_mem r hx)

/-- A run's first step. -/
theorem run_succ {s t : State} (h : step s = .next t) (n : Nat) :
    Host.Core.run Sys2Proof.core (n + 1) s = Host.Core.run Sys2Proof.core n t := by
  have hcore : Sys2Proof.core.step s = .next t := h
  simp only [Host.Core.run, hcore]

/-- Settles O13, by induction on the number of steps: the first one goes on, keeps the invariant, and leaves requests that
were there before. -/
theorem runsNeverStop : Obligations.RunsNeverStop := by
  intro n
  induction n with
  | zero => exact fun s hs _ => ⟨s, rfl, hs⟩
  | succ n ih =>
    intro s hs hd
    obtain ⟨t, ht, hsub⟩ := step_goes_on hs hd
    rw [run_succ ht]
    exact ih t (stepKeepsInvariant s t hs ht) fun r hr => hd r (hsub r hr)

end Sys2Proof.Machine

namespace Sys2Proof.Machine

/-! Proofs about UPDATE and its forms: carried out with and without an answer at hand, rejected, and refused where a
level is 7. -/

/-! ### An UPDATE that is carried out -/

/-- An UPDATE that stage 1 passes and whose commit leaves valid levels (40_state_update.md rules R102 to R105). -/
theorem runUpdate_accepted {u : Update} {s : State} (hb : s.busy = false) (hu : firstInvalid u = none)
    (hv : (s.dev.commit u).Valid) :
    runUpdate u s = .next (emitThen .update (encodeDevice (s.dev.commit u))
      (setDevice (s.dev.commit u) (encodeDevice (s.dev.commit u)) s)) := by
  simp [runUpdate, hb, hu, (badLevel_eq_none_iff _).mpr hv]

/-- The state of an UPDATE that has committed the registers `d` and handed their encoding over (rules R104 and R105). -/
def handedOver (d : Device) (s : State) : State :=
  handOver .update (encodeDevice d) (setDevice d (encodeDevice d) s)

/-- The end of an UPDATE that an idle block carried out with an answer at hand: what its transmission set is idle
again. -/
theorem finish_handedOver {s : State} (hs : Idle s) (d : Device) (a : Answer) (as : List Answer) :
    finish .update a (setAnswers as (handedOver d s)) = afterUpdate d a as s := by
  obtain ⟨hbusy, hflight, hpos⟩ := hs
  rw [finish_update_eq]
  cases a <;> simp [afterUpdate, handedOver, handOver_eq, setAnswers, setDevice, Answer.response, Exc.response, hbusy, hflight,
    hpos]

theorem runUpdate_answered {u : Update} {s : State} {a : Answer} {as : List Answer} (hs : Idle s)
    (hu : firstInvalid u = none) (hv : (s.dev.commit u).Valid) (ha : s.answers = a :: as) :
    runUpdate u s = .next (afterUpdate (s.dev.commit u) a as s) := by
  rw [runUpdate_accepted hs.1 hu hv, emitThen_answered _ _ (by rw [setDevice_answers, ha]), ← finish_handedOver hs]
  rfl

/-- Settles O18: the state after the UPDATE, for either answer. -/
theorem updateCommitsEncodesAndEmits : Obligations.UpdateCommitsEncodesAndEmits := by
  intro u s as hs hl hf hm hv
  have hu := firstInvalid_eq_none_of_inRange hl hf hm
  exact ⟨runUpdate_answered hs hu hv, runUpdate_answered hs hu hv⟩

theorem runUpdate_unanswered {u : Update} {s : State} (hb : s.busy = false) (hu : firstInvalid u = none)
    (hv : (s.dev.commit u).Valid) (ha : s.answers = []) :
    runUpdate u s = .next (handedOver (s.dev.commit u) s) := by
  rw [runUpdate_accepted hb hu hv, emitThen_waiting _ _ (by rw [setDevice_answers, ha]), handedOver]

/-- Settles O19: the fields that `handedOver` writes are those listed. -/
theorem unansweredUpdateIsInFlight : Obligations.UnansweredUpdateIsInFlight :=
  fun _ _ hs hl hf hm hv ha => runUpdate_unanswered hs.1 (firstInvalid_eq_none_of_inRange hl hf hm) hv ha

/-! ### The forms -/

/-- A form that stage 1 passes, on valid levels, ends as the UPDATE it stands for. -/
theorem exec_form_answered {i : Instr} {u : Update} {s : State} {a : Answer} {as : List Answer}
    (hi : standsFor i = some u) (hs : Idle s) (hv : s.dev.Valid) (ha : s.answers = a :: as)
    (hu : firstInvalid u = none) : exec i s = .next (afterUpdate (s.dev.commit u) a as s) := by
  rw [exec_eq_runUpdate hi, runUpdate_answered hs hu (commit_valid u s.dev hu hv) ha]

/-- Settles O22: the commit of one boolean field writes that register, and the empty commit none. -/
theorem booleanFormsAndResendTransmit : Obligations.BooleanFormsAndResendTransmit := by
  intro s v a as hs hv ha
  refine ⟨?pilot, ?thermostat, ?power, ?front, ?aux, ?resend⟩
  case pilot => exact exec_form_answered (u := { pilot := some v }) rfl hs hv ha rfl
  case thermostat => exact exec_form_answered (u := { thermostat := some v }) rfl hs hv ha rfl
  case power => exact exec_form_answered (u := { power := some v }) rfl hs hv ha rfl
  case front => exact exec_form_answered (u := { front := some v }) rfl hs hv ha rfl
  case aux => exact exec_form_answered (u := { aux := some v }) rfl hs hv ha rfl
  case resend => exact exec_form_answered (u := {}) rfl hs hv ha rfl

/-- A level register takes the number of a level as that level. -/
theorem toLevel_natCast (l : Level) : toLevel (l.toNat : Int) = l := by
  rw [toLevel, BitVec.ofInt_natCast, ofNat_toNat_self]

theorem invalidLevel_of_le {l : Level} (hl : l.toNat ≤ 6) : invalidLevel (some (l.toNat : Int)) = none := by
  have hvalid : levelValid (l.toNat : Int) = true := (levelValid_iff _).mpr (by omega)
  simp [invalidLevel, hvalid]

/-- A form that stage 1 rejects only gives the error response of an idle block. -/
theorem exec_form_rejected {i : Instr} {u : Update} {s : State} {f : Field} {n : Int} (hi : standsFor i = some u)
    (hs : Idle s) (hu : firstInvalid u = some (f, n)) : exec i s = .next (afterError (.outOfRange f n) s) := by
  rw [exec_eq_exec_update hi, exec_update_rejected hs hu]

/-- Settles O23: stage 1 of a level form looks at its one value. -/
theorem levelFormsTransmitOrReject : Obligations.LevelFormsTransmitOrReject := by
  refine ⟨fun s l a as hs hv ha hl => ?valid, fun s n hs hn => ?invalid⟩
  case valid =>
    have hpass := invalidLevel_of_le hl
    refine ⟨?light, ?fan, ?flame⟩
    case light =>
      rw [exec_form_answered rfl hs hv ha ((firstInvalid_eq_none_iff _).mpr ⟨hpass, rfl, rfl⟩)]
      simp [Device.commit, toLevel_natCast]
    case fan =>
      rw [exec_form_answered rfl hs hv ha ((firstInvalid_eq_none_iff _).mpr ⟨rfl, hpass, rfl⟩)]
      simp [Device.commit, toLevel_natCast]
    case flame =>
      rw [exec_form_answered rfl hs hv ha ((firstInvalid_eq_none_iff _).mpr ⟨rfl, rfl, hpass⟩)]
      simp [Device.commit, toLevel_natCast]
  case invalid =>
    have hbad : invalidLevel (some n) = some n := invalidLevel_eq_some rfl (by omega)
    have hnone : InRange none := fun _ h => nomatch h
    exact ⟨exec_form_rejected rfl hs (firstInvalid_of_light hbad),
      exec_form_rejected rfl hs (firstInvalid_of_fan hnone hbad),
      exec_form_rejected rfl hs (firstInvalid_of_flame hnone hnone hbad)⟩

/-! ### What can be rejected -/

theorem eq_of_invalidLevel {o : Option Int} {n : Int} (h : invalidLevel o = some n) : o = some n ∧ ¬ (0 ≤ n ∧ n ≤ 6) := by
  cases o with
  | none => cases h
  | some m =>
    cases hm : levelValid m with
    | true => simp [invalidLevel, hm] at h
    | false =>
      obtain rfl : m = n := by simpa [invalidLevel, hm] using h
      exact ⟨rfl, fun hn => by simp [(levelValid_iff m).mpr hn] at hm⟩

/-- What stage 1 reports is one of the three level fields, with the value selected for it. -/
theorem firstInvalid_eq_some {u : Update} {f : Field} {n : Int} (h : firstInvalid u = some (f, n)) :
    (f = .light ∧ invalidLevel u.light = some n) ∨ (f = .fan ∧ invalidLevel u.fan = some n) ∨
      (f = .flame ∧ invalidLevel u.flame = some n) := by
  unfold firstInvalid at h
  split at h
  case h_1 m hl => cases h; exact .inl ⟨rfl, hl⟩
  case h_2 m _ hf => cases h; exact .inr (.inl ⟨rfl, hf⟩)
  case h_3 m _ _ hm => cases h; exact .inr (.inr ⟨rfl, hm⟩)
  case h_4 => cases h

/-- The one level value of three bits that is out of range is 7 (60_exceptions.md rule R221). -/
theorem eq_seven_of_invalidLevel {o : Option Int} {n : Int} (ho : fitsLevelOpt o = true)
    (h : invalidLevel o = some n) : n = 7 := by
  obtain ⟨rfl, hn⟩ := eq_of_invalidLevel h
  have := (fitsLevel_iff n).mp ho
  omega

/-- The observation of an UPDATE that is carried out goes on with an emit. -/
theorem emit_of_emitThen (c : Caller) (b : Bits) (s : State) :
    ∃ rest, (emitThen c b s).obs = s.obs ++ .emit b 4 :: rest := by
  obtain ⟨-, he⟩ | ⟨a, as, -, he⟩ := emitThen_cases c b s
  · exact ⟨[], by rw [he, handOver_eq]⟩
  · cases c with
    | update => exact ⟨[.response a.response], by simp [he, finish_update_eq, handOver_eq]⟩
    | emit => exact ⟨_, by rw [he, finish_emit_eq, setAnswers_obs, handOver_eq, List.append_assoc]; rfl⟩

/-- Settles O21: the response is that of stage 1, and a level field of a command word is 0 to 7. -/
theorem interfaceRejectsOnlySeven : Obligations.InterfaceRejectsOnlySeven := by
  intro w s t f n hb h hobs
  obtain ⟨hbusy, -⟩ | ⟨-, f', n', hu, rfl⟩ | ⟨-, -, -, ht⟩ := runUpdate_next h
  · rw [hb] at hbusy
    cases hbusy
  · obtain ⟨rfl, rfl⟩ : f' = f ∧ n' = n := by simpa [raise_eq] using hobs
    obtain ⟨rfl, hbad⟩ | ⟨rfl, hbad⟩ | ⟨rfl, hbad⟩ := firstInvalid_eq_some hu
    · exact ⟨eq_seven_of_invalidLevel (fitsLevelOpt_ite _ w 10) hbad, .inl rfl⟩
    · exact ⟨eq_seven_of_invalidLevel (fitsLevelOpt_ite _ w 4) hbad, .inr (.inl rfl)⟩
    · exact ⟨eq_seven_of_invalidLevel (fitsLevelOpt_ite _ w 0) hbad, .inr (.inr rfl)⟩
  · obtain ⟨b, rest, hemit⟩ : ∃ b rest, t.obs = s.obs ++ .emit b 4 :: rest := by
      rw [ht]
      exact ⟨_, emit_of_emitThen ..⟩
    rw [hemit, List.append_cancel_left_eq] at hobs
    cases hobs

/-! ### Levels of 7 -/

/-- Where a level is not valid, some level register is named. -/
theorem badLevel_of_not_valid {d : Device} (hd : ¬ d.Valid) : ∃ f, d.badLevel = some f :=
  Option.ne_none_iff_exists'.mp (mt (badLevel_eq_none_iff d).mp hd)

theorem levelOk_seven : levelOk 7#3 = false := rfl

/-- Settles O33: each of these operations looks at the levels it encodes before it encodes them. -/
theorem levelSevenIsNotEncoded : Obligations.LevelSevenIsNotEncoded := by
  refine ⟨fun s hl => ?cw1, fun s hf => ?cw2Fan, fun s hf hm => ?cw2Flame, fun s hv => ?assemble,
    fun s u hb hl hf hm hv => ?update⟩
  case cw1 => simp [exec, execCw1, hl, levelOk_seven]
  case cw2Fan => simp [exec, execCw2, hf, levelOk_seven]
  case cw2Flame => simp [exec, execCw2, (levelOk_iff _).mpr hf, hm, levelOk_seven]
  case assemble =>
    obtain ⟨f, hbad⟩ := badLevel_of_not_valid hv
    exact ⟨f, by simp [exec, execAssemble, hbad], by simp [exec, execEncode, hbad]⟩
  case update =>
    obtain ⟨f, hbad⟩ := badLevel_of_not_valid hv
    exact ⟨f, by simp [exec, execUpdate, runUpdate, hb, firstInvalid_eq_none_of_inRange hl hf hm, hbad]⟩

end Sys2Proof.Machine

namespace Sys2Proof.Machine

/-! Proofs about the ECC words bit by bit, the words of a Packet read back from its encoded sequence, and the bytes of a
packed one. -/

/-! ### The ECC words -/

theorem eccWord_parts (high low : Nibble) :
    (eccWord high low).extractLsb' 5 4 = high ∧ (eccWord high low).extractLsb' 1 4 = low ∧
      (eccWord high low).getLsbD 0 = false := by
  have hpad : (eccWord high low).getLsbD 0 = false := by
    unfold eccWord
    simp only [BitVec.getLsbD_append]
    rfl
  refine ⟨?_, ?_, hpad⟩
  all_goals
    unfold eccWord
    simp (disch := decide) only [BitVec.extractLsb'_append_eq_of_add_le, BitVec.extractLsb'_append_eq_of_le,
      Nat.reduceSub, BitVec.extractLsb'_eq_self]

/-- Settles O39: the operations return `ecc1` and `ecc2` of the word, whose nibbles are cut off again. -/
theorem eccWordsOfACommandWord : Obligations.EccWordsOfACommandWord :=
  fun _ w => ⟨⟨ecc1 w, rfl, eccWord_parts _ _⟩, ⟨ecc2 w, rfl, eccWord_parts _ _⟩⟩

theorem contentBits_eccWord (high low : Nibble) :
    contentBits (eccWord high low) =
      [high.getLsbD 3, high.getLsbD 2, high.getLsbD 1, high.getLsbD 0, low.getLsbD 3, low.getLsbD 2, low.getLsbD 1,
       low.getLsbD 0, false] := by
  unfold contentBits eccWord
  simp only [BitVec.getLsbD_append]
  rfl

/-- The command words bit by bit (41_packet_encoder.md rules R122 and R123). -/
theorem contentBits_cw1 (d : Device) :
    contentBits (cw1 d) = [d.pilot, d.light.getLsbD 2, d.light.getLsbD 1, d.light.getLsbD 0, false, false, d.thermostat,
      d.power, false] := by
  unfold contentBits cw1 bit bin3
  simp only [BitVec.getLsbD_append, BitVec.getLsbD_ofBool]
  rfl

theorem contentBits_cw2 (d : Device) :
    contentBits (cw2 d) = [d.front, d.fan.getLsbD 2, d.fan.getLsbD 1, d.fan.getLsbD 0, d.aux, d.flame.getLsbD 2,
      d.flame.getLsbD 1, d.flame.getLsbD 0, false] := by
  unfold contentBits cw2 bit bin3
  simp only [BitVec.getLsbD_append, BitVec.getLsbD_ofBool]
  rfl

/-- ECC1 of any word bit by bit, in the word's bits 8 to 1 (42_checksum_ecc.md rule R144). -/
theorem contentBits_ecc1 (w : Word) :
    contentBits (ecc1 w) =
      [!(w.getLsbD 8 ^^ w.getLsbD 7 ^^ w.getLsbD 3), !(w.getLsbD 7 ^^ w.getLsbD 6 ^^ w.getLsbD 2),
       w.getLsbD 6 ^^ w.getLsbD 5 ^^ w.getLsbD 1, !(w.getLsbD 5), w.getLsbD 8 ^^ w.getLsbD 4, w.getLsbD 7 ^^ w.getLsbD 3,
       w.getLsbD 6 ^^ w.getLsbD 2, w.getLsbD 5 ^^ w.getLsbD 1, false] := by
  rw [ecc1, contentBits_eccWord]
  simp [ecc1High_eq, ecc1Low, shl4_eq_shiftLeft, hiNibble, loNibble]

/-- ECC2 of any word bit by bit (rule R147). -/
theorem contentBits_ecc2 (w : Word) :
    contentBits (ecc2 w) =
      [w.getLsbD 8 ^^ w.getLsbD 7 ^^ w.getLsbD 3, w.getLsbD 7 ^^ w.getLsbD 6 ^^ w.getLsbD 2,
       w.getLsbD 6 ^^ w.getLsbD 5 ^^ w.getLsbD 1, w.getLsbD 5, w.getLsbD 8 ^^ w.getLsbD 4,
       !(w.getLsbD 7 ^^ w.getLsbD 3), !(w.getLsbD 6 ^^ w.getLsbD 2), !(w.getLsbD 5 ^^ w.getLsbD 1), false] := by
  rw [ecc2, contentBits_eccWord]
  simp [ecc2High_eq_ecc1High, ecc2Low_eq_ecc1Low, ecc1High_eq, ecc1Low, shl4_eq_shiftLeft, hiNibble, loNibble]

/-- Settles O40: the bits of the ECC words in those of the command words, and these in the registers; CW1's two zeros
drop out. -/
theorem eccWordsOfTheRegisters : Obligations.EccWordsOfTheRegisters := by
  intro d
  have hcw1 := contentBits_cw1 d
  have hcw2 := contentBits_cw2 d
  simp only [contentBits, List.cons.injEq, and_true] at hcw1 hcw2
  rw [assemble, contentBits_ecc1, contentBits_ecc2]
  constructor
  · simp only [hcw1, Bool.xor_false]
  · simp only [hcw2]

/-- Settles O36: the two command words read the registers named, and the ECC words their command words. -/
theorem packetWordsAreIndependent : Obligations.PacketWordsAreIndependent := by
  refine fun d e => ⟨fun hpilot hlight hthermostat hpower => ?cmd1, fun hfront hfan haux hflame => ?cmd2,
    fun h0 h1 h2 => ⟨h0, h1, h2⟩⟩
  case cmd1 =>
    have hcw1 : cw1 d = cw1 e := by rw [cw1, cw1, hpilot, hlight, hthermostat, hpower]
    exact ⟨hcw1, congrArg ecc1 hcw1⟩
  case cmd2 =>
    have hcw2 : cw2 d = cw2 e := by rw [cw2, cw2, hfront, hfan, haux, hflame]
    exact ⟨hcw2, congrArg ecc2 hcw2⟩

/-- Settles O47: the flipped bit is one of the nine that the exclusive or takes. -/
theorem flippedContentBitFlipsParity : Obligations.FlippedContentBitFlipsParity := by
  intro w k hk
  simp only [parity_eq_xor, getLsbD_flip (Nat.lt_succ_of_le hk)]
  interval_cases k <;> simp

/-! ### The words read back from an encoded sequence -/

/-- A frame shows its word's nine bits (43_symbol_framer.md rule R161). -/
theorem frame_injective {w v : Word} (h : frame w = frame v) : w = v := by
  refine BitVec.eq_of_getLsbD_eq fun k hk => sym_injective ?_
  have hsym := congrArg (·[2 + (8 - k)]?) h
  have hk' : 8 - (8 - k) = k := by omega
  simpa [frame_getElem?_content _ (Nat.sub_le 8 k), hk'] using hsym

/-- The frames of two Packets with one symbol sequence stand at the same places. -/
theorem packetWords_of_symseq {p q : Packet} (h : symseq p = symseq q) : packetWords p = packetWords q := by
  refine List.ext_getElem? fun k => ?_
  obtain hk | hk := Nat.lt_or_ge k 7
  · obtain ⟨w, hw⟩ := packetWords_getElem?_of_lt p hk
    obtain ⟨v, hv⟩ := packetWords_getElem?_of_lt q hk
    have hwp := frame_isPrefix_drop_symseq hw
    have hvq := frame_isPrefix_drop_symseq hv
    rw [h] at hwp
    have hframe := (List.prefix_of_prefix_length_le hwp hvq (by simp)).eq_of_length (by simp)
    rw [hw, hv, frame_injective hframe]
  · rw [List.getElem?_eq_none hk, List.getElem?_eq_none hk]

theorem symseq_injective {p q : Packet} (h : symseq p = symseq q) : p = q := by
  have hwords := packetWords_of_symseq h
  cases p
  cases q
  simpa [packetWords] using hwords

/-- The expansion is undone by reading pairs (44_line_coder.md rule R182). -/
theorem expand_injective {p q : List Symbol} (h : expand p = expand q) : p = q := by
  rw [expand_eq_symbolsToBits, expand_eq_symbolsToBits] at h
  rw [← bitsToSymbols_symbolsToBits p, h, bitsToSymbols_symbolsToBits]

/-- Settles O53: each stage of ENCODE is undone. -/
theorem encodeIsInjective : Obligations.EncodeIsInjective :=
  fun d e h => assembleIsInjective d e (symseq_injective (expand_injective h))

/-! ### PACK -/

/-- A sequence of eight bits or more begins with a byte. -/
theorem exists_byte : ∀ {b : Bits}, 8 ≤ b.length →
    ∃ b7 b6 b5 b4 b3 b2 b1 b0 rest, b = b7 :: b6 :: b5 :: b4 :: b3 :: b2 :: b1 :: b0 :: rest
  | b7 :: b6 :: b5 :: b4 :: b3 :: b2 :: b1 :: b0 :: rest, _ => ⟨b7, b6, b5, b4, b3, b2, b1, b0, rest, rfl⟩

/-- The rest of a sequence after eight bits is packed as the rest of the bytes; fewer than eight bits are no byte. -/
theorem pack_drop_eight : ∀ b : Bits, pack (b.drop 8) = (pack b).drop 1
  | [] | [_] | [_, _] | [_, _, _] | [_, _, _, _] | [_, _, _, _, _] | [_, _, _, _, _, _] | [_, _, _, _, _, _, _] => rfl
  | _ :: _ :: _ :: _ :: _ :: _ :: _ :: _ :: _ => rfl

theorem pack_drop (b : Bits) (n : Nat) : pack (b.drop (8 * n)) = (pack b).drop n := by
  induction n with
  | zero => rfl
  | succ n ih => rw [Nat.mul_succ, ← List.drop_drop, pack_drop_eight, ih, List.drop_drop]

theorem pack_length : ∀ b : Bits, (pack b).length = b.length / 8
  | [] | [_] | [_, _] | [_, _, _] | [_, _, _, _] | [_, _, _, _, _] | [_, _, _, _, _, _] | [_, _, _, _, _, _, _] => by
    simp [pack]
  | _ :: _ :: _ :: _ :: _ :: _ :: _ :: _ :: rest => by
    simp only [pack, List.length_cons, pack_length rest]
    omega

/-- The first bit of a byte is its highest (rule R185). -/
theorem pack_head {b : Bits} (hb : 8 ≤ b.length) {j : Nat} (hj : j < 8) :
    ((pack b)[0]?.map fun x => x.getLsbD (7 - j)) = b[j]? := by
  obtain ⟨b7, b6, b5, b4, b3, b2, b1, b0, rest, rfl⟩ := exists_byte hb
  unfold pack bit
  simp only [List.getElem?_cons_zero, Option.map_some, BitVec.getLsbD_append, BitVec.getLsbD_ofBool]
  interval_cases j <;> rfl

/-- Bit `7 - j` of byte `n` is bit `8 n + j` of the sequence. -/
theorem pack_getElem? {b : Bits} {n j : Nat} (hn : 8 * n + 8 ≤ b.length) (hj : j < 8) :
    ((pack b)[n]?.map fun x => x.getLsbD (7 - j)) = b[8 * n + j]? := by
  have hlength : 8 ≤ (b.drop (8 * n)).length := by
    rw [List.length_drop]
    omega
  have hhead := pack_head hlength hj
  rwa [pack_drop, List.getElem?_drop, List.getElem?_drop] at hhead

/-- Settles O54: PACK returns `pack b`. -/
theorem packPutsTheFirstBitHighest : Obligations.PackPutsTheFirstBitHighest := by
  refine fun s b hb => ⟨pack b, rfl, ?length, fun n j hn hj => ?bits⟩
  case length => rw [pack_length, hb]
  case bits => exact pack_getElem? (by omega) hj

/-- Byte 0 of an encoded sequence is the SYNC, the guard and the first two content bits of the first frame. -/
theorem encodeDevice_take_byte (d : Device) :
    (encodeDevice d).take 8 = [true, true, true, false, d.serial0.getLsbD 8, !d.serial0.getLsbD 8, d.serial0.getLsbD 7,
      !d.serial0.getLsbD 7] := by
  have hsymbols : (symseq (assemble d)).take 4 =
      [.sync, .one, sym (d.serial0.getLsbD 8), sym (d.serial0.getLsbD 7)] := rfl
  rw [encodeDevice, expand_take _ 4, hsymbols]
  simp only [expand_cons, linecode_sym]
  rfl

/-- The last two bytes lie in the tail. -/
theorem pack_encodeDevice_drop (d : Device) : (pack (encodeDevice d)).drop 23 = [0, 0] := by
  rw [← pack_drop, ← List.drop_drop (i := 2) (j := 182), encodeDevice_drop_frames]
  rfl

/-- Settles O55: byte 0 from the first frame, bytes 23 and 24 from the tail. -/
theorem packedEncodedSequence : Obligations.PackedEncodedSequence := by
  intro d
  refine ⟨?first, ?tail23, ?tail24, by rw [pack_length, encodeDevice_length]⟩
  case first =>
    rw [← List.take_append_drop 8 (encodeDevice d), encodeDevice_take_byte]
    cases d.serial0.getLsbD 8 <;> cases d.serial0.getLsbD 7 <;> rfl
  case tail23 => rw [← Nat.add_zero 23, ← List.getElem?_drop, pack_encodeDevice_drop]; rfl
  case tail24 => rw [← List.getElem?_drop (i := 23) (j := 1), pack_encodeDevice_drop]; rfl

end Sys2Proof.Machine

namespace Sys2Proof.Machine

/-! Proofs about the transmission: the bits on the air, one bit a step, and the whole walk over the five repetitions,
which ends where the atomic UPDATE does. -/

/-! ### The bits on the air -/

/-- Copies of a sequence one after the other: copy `r` begins at `r` times its length. -/
theorem flatten_replicate_getElem? {b : Bits} {n r i : Nat} (hr : r < n) (hi : i < b.length) :
    (List.replicate n b).flatten[b.length * r + i]? = b[i]? := by
  induction n generalizing r with
  | zero => cases hr
  | succ n ih =>
    rw [List.replicate_succ, List.flatten_cons]
    cases r with
    | zero => rw [Nat.mul_zero, Nat.zero_add, List.getElem?_append_left hi]
    | succ r =>
      have hshift : b.length * (r + 1) + i = b.length + (b.length * r + i) := by ring
      rw [hshift, List.getElem?_append_right (Nat.le_add_right _ _), Nat.add_sub_cancel_left]
      exact ih (Nat.lt_of_succ_lt_succ hr)

theorem onAir_getElem? {b : Bits} {r i : Nat} (hb : b.length = 200) (hr : r < 5) (hi : i < 200) :
    (onAir b)[200 * r + i]? = b[i]? := by
  rw [← hb] at hi ⊢
  exact flatten_replicate_getElem? hr hi

/-- Settles O58. -/
theorem airCarriesFiveCopies : Obligations.AirCarriesFiveCopies :=
  fun b hb => ⟨by rw [onAir_length, hb], fun _ _ => onAir_getElem? hb⟩

/-! ### One bit -/

theorem transportStep_unanswered {s : State} {f : Flight} (hf : s.flight = some f) (ha : s.answers = []) :
    transportStep s = sendBit f s := by
  simp [transportStep, hf, ha]

theorem sendBit_of_lt {f : Flight} {s : State} (hpos : s.pos < 200) : sendBit f s = { s with pos := s.pos + 1 } :=
  if_pos hpos

/-- Settles O59: the bit that leaves is the one of the sequence at `pos`, and so the next of the air. -/
theorem positionWalksTheSequence : Obligations.PositionWalksTheSequence := by
  intro s f hf hbits hrep ha hpos
  rw [transportStep_unanswered hf ha, sendBit_of_lt hpos]
  obtain ⟨b, hb⟩ : ∃ b, f.bits[s.pos]? = some b := ⟨_, List.getElem?_eq_getElem (by rwa [hbits])⟩
  refine ⟨rfl, hf, b, by rw [nextBit, hf]; exact hb, ?_⟩
  rw [sentBits, sentBits, ← Nat.add_assoc, List.take_add_one, onAir_getElem? hbits (Nat.lt_succ_of_le hrep) hpos, hb]
  rfl

/-! ### The whole walk -/

/-- `s` with `f` in flight, in this repetition and with this position the next to leave. -/
def inFlight (f : Flight) (rep pos : Nat) (s : State) : State :=
  { s with pos := pos, flight := some { f with rep := rep } }

section Walk

variable {s : State} (hb : s.busy = true) (hr : s.requests = []) (ha : s.answers = [.done])

include hb hr in
/-- With no request presented the step of a busy block is the transport's. -/
theorem step_inFlight (f : Flight) (rep pos : Nat) :
    step (inFlight f rep pos s) = .next (transportStep (inFlight f rep pos s)) := by
  simp [step, inFlight, hb, hr]

include ha in
/-- A done at hand is not taken before the end (log 31). -/
theorem transportStep_early {f : Flight} {rep pos : Nat} (hearly : ¬ (pos = 200 ∧ rep = 4)) :
    transportStep (inFlight f rep pos s) = sendBit { f with rep := rep } (inFlight f rep pos s) := by
  have hsent : allSent { f with rep := rep } pos = false := by
    simpa [allSent, Config.repeatCount] using hearly
  simp [transportStep, inFlight, ha, hsent]

include hb hr ha in
theorem step_next_bit {f : Flight} {rep pos : Nat} (hpos : pos < 200) :
    step (inFlight f rep pos s) = .next (inFlight f rep (pos + 1) s) := by
  rw [step_inFlight hb hr, transportStep_early ha (by omega), sendBit_of_lt hpos]
  rfl

include hb hr ha in
theorem step_next_repetition {f : Flight} {rep : Nat} (hrep : rep < 4) :
    step (inFlight f rep 200 s) = .next (inFlight f (rep + 1) 0 s) := by
  rw [step_inFlight hb hr, transportStep_early ha (by omega)]
  obtain ⟨hlt, -⟩ | ⟨-, -, he⟩ | ⟨-, hge, -⟩ := sendBit_cases { f with rep := rep } (inFlight f rep 200 s)
  · exact absurd hlt (Nat.lt_irrefl 200)
  · rw [he]; rfl
  · exact absurd hrep (Nat.not_lt.mpr hge)

include hb hr ha in
theorem step_done (f : Flight) :
    step (inFlight f 4 200 s) = .next (finish f.caller .done (setAnswers [] (inFlight f 4 200 s))) := by
  rw [step_inFlight hb hr]
  simp [transportStep, inFlight, ha, allSent, Config.repeatCount]

include hb hr ha in
/-- `n` bits leave in `n` steps. -/
theorem run_bits (f : Flight) (rep : Nat) {n pos : Nat} (hpos : pos + n ≤ 200) (k : Nat) :
    Host.Core.run Sys2Proof.core (n + k) (inFlight f rep pos s) =
      Host.Core.run Sys2Proof.core k (inFlight f rep (pos + n) s) := by
  induction n generalizing pos with
  | zero => rw [Nat.zero_add, Nat.add_zero]
  | succ n ih =>
    rw [Nat.add_right_comm, run_succ (step_next_bit hb hr ha (by omega)), ih (by omega), Nat.add_right_comm, Nat.add_assoc]

include hb hr ha in
/-- A repetition that is not the last takes its 200 bits and the step back to position 0. -/
theorem run_repetition (f : Flight) {rep : Nat} (hrep : rep < 4) (k : Nat) :
    Host.Core.run Sys2Proof.core (201 + k) (inFlight f rep 0 s) =
      Host.Core.run Sys2Proof.core k (inFlight f (rep + 1) 0 s) := by
  have hsteps : 201 + k = 200 + (k + 1) := by omega
  rw [hsteps, run_bits hb hr ha f rep (by decide), Nat.zero_add, run_succ (step_next_repetition hb hr ha hrep)]

include hb hr ha in
/-- The whole transmission: four repetitions of 201 steps, the fifth of 200, and the step that takes the answer. -/
theorem run_transmission (f : Flight) :
    Host.Core.run Sys2Proof.core 1005 (inFlight f 0 0 s) =
      .next (finish f.caller .done (setAnswers [] (inFlight f 4 200 s))) := by
  calc Host.Core.run Sys2Proof.core 1005 (inFlight f 0 0 s)
    _ = Host.Core.run Sys2Proof.core 804 (inFlight f 1 0 s) := run_repetition hb hr ha f (by decide) 804
    _ = Host.Core.run Sys2Proof.core 603 (inFlight f 2 0 s) := run_repetition hb hr ha f (by decide) 603
    _ = Host.Core.run Sys2Proof.core 402 (inFlight f 3 0 s) := run_repetition hb hr ha f (by decide) 402
    _ = Host.Core.run Sys2Proof.core 201 (inFlight f 4 0 s) := run_repetition hb hr ha f (by decide) 201
    _ = Host.Core.run Sys2Proof.core 1 (inFlight f 4 200 s) := run_bits hb hr ha f 4 (n := 200) (by decide) 1
    _ = .next (finish f.caller .done (setAnswers [] (inFlight f 4 200 s))) := run_succ (step_done hb hr ha f) 0

end Walk

/-! ### The walk against the atomic UPDATE -/

/-- A block in flight that hears failed takes it in the next step, wherever it is (45_emit_transport.md rule R206). -/
theorem run_one_failed {s : State} {f : Flight} (hb : s.busy = true) (hr : s.requests = []) (hf : s.flight = some f)
    (ha : s.answers = [.failed]) :
    Host.Core.run Sys2Proof.core 1 s = .next (finish f.caller .failed (setAnswers [] s)) := by
  have hstep : step s = .next (finish f.caller .failed (setAnswers [] s)) := by
    simp [step, hb, hr, transportStep, hf, ha]
  exact run_succ hstep 0

/-- An answer that comes after the hand-over ends the UPDATE as one that was at hand (40_state_update.md rule R102). -/
theorem finish_heard {s : State} (hs : Idle s) (d : Device) (a : Answer) :
    finish .update a (setAnswers [] ((handedOver d s).hear a)) = afterUpdate d a [] (s.hear a) :=
  finish_handedOver (s := s.hear a) hs d a []

/-- Where the transmission was does not matter to its end. -/
theorem finish_inFlight (c : Caller) (a : Answer) (as : List Answer) (f : Flight) (rep pos : Nat) (s : State) :
    finish c a (setAnswers as (inFlight f rep pos s)) = finish c a (setAnswers as s) := by
  cases c <;> cases a <;> rfl

/-- An UPDATE waiting for its transmission ends on failed in one step, on done after the whole walk, as `afterUpdate`
says. -/
theorem run_heard {s : State} (hs : Idle s) (hr : s.requests = []) (ha : s.answers = []) (d : Device) :
    Host.Core.run Sys2Proof.core 1 ((handedOver d s).hear .failed) =
        .next (afterUpdate d .failed [] (s.hear .failed)) ∧
      Host.Core.run Sys2Proof.core 1005 ((handedOver d s).hear .done) =
        .next (afterUpdate d .done [] (s.hear .done)) := by
  have hheard (a : Answer) : ((handedOver d s).hear a).answers = [a] := by
    rw [hear_answers, handedOver, handOver_eq, setDevice_answers, ha]
    rfl
  constructor
  · rw [run_one_failed (s := (handedOver d s).hear .failed) rfl hr rfl (hheard .failed), ← finish_heard hs]
  · rw [← finish_heard hs]
    exact (run_transmission (s := (handedOver d s).hear .done) rfl hr (hheard .done) ⟨_, 0, .update⟩).trans
      (congrArg _ (finish_inFlight ..))

/-- Settles O60: the UPDATE has handed over and waits, and both of its ends are those of the UPDATE with the answer at
hand. -/
theorem transmissionRefinesTheAtomicUpdate : Obligations.TransmissionRefinesTheAtomicUpdate := by
  intro u s t hs hl hf hm ha hr h
  have hu := firstInvalid_eq_none_of_inRange hl hf hm
  obtain ⟨hbusy, -⟩ | ⟨-, f, n, hrejected, -⟩ | ⟨-, -, hv, -⟩ := runUpdate_next h
  · rw [hs.1] at hbusy
    cases hbusy
  · rw [hu] at hrejected
    cases hrejected
  have ht : handedOver (s.dev.commit u) s = t := by
    have hexec : exec (.update u) s = .next (handedOver (s.dev.commit u) s) := runUpdate_unanswered hs.1 hu hv ha
    simpa [hexec] using h
  have hatomic (a : Answer) : exec (.update u) (s.hear a) = .next (afterUpdate (s.dev.commit u) a [] (s.hear a)) :=
    runUpdate_answered (s := s.hear a) hs hu hv (by rw [hear_answers, ha]; rfl)
  rw [← ht, hatomic, hatomic]
  exact run_heard hs hr ha _

end Sys2Proof.Machine
